-- ==== Sys2Proof/Word.lean ====
section
/-! DEFINITION. The words of CORE: the 32-bit lane word (rule R4), the 43-bit command word (rule R50) and the 34-bit
response word (rule R56). Bit 0 is the least significant bit of each (rule R7). -/

namespace Sys2Proof

/-- A lane word: 32 bits that CORE stores and returns and never interprets (rules R4, R7, R11). -/
abbrev Word := BitVec 32

/-- A command word `CW`, 43 bits (rule R50). -/
abbrev CommandWord := BitVec 43

/-- A response word `RW`, 34 bits (rule R56). -/
abbrev ResponseWord := BitVec 34

end Sys2Proof
end

