-- ==== Sys2Proof/Syntax.lean ====
section
/-! DEFINITION. The eleven operations of CORE (rules R51, R53), one constructor per row of spec/opcode_table.json, with
the operands rule R53 says each uses; the three directions (rule R3); the pseudo-operations (rule R65). -/

namespace Sys2Proof

/-- The three directions, each of which names one channel (rules R3, R52). -/
inductive Direction where
  /-- host to remote requests, the only channel with a credit counter -/
  | h2rReq
  /-- remote to host requests -/
  | r2hReq
  /-- remote to host responses -/
  | r2hRsp
  deriving DecidableEq, Repr

/-- An operation with the operands it uses. `dir` is the 2-bit direction field, in which one value is unrecognised
(rule R52). `off` is a byte offset of any size: rule R32 allows a model "that takes a wider offset (any natural
number)", for which rule R31 makes every value but four invalid; the port carries 4 bits of it. The query mode of
rules R54 and R95 is the choice of the constructor. -/
inductive Instr where
  /-- NOP (rule R80) -/
  | nop
  /-- INIT `dir` (rule R81) -/
  | init (dir : BitVec 2)
  /-- WRITE `dir`, `off`, `wdata` (rule R82) -/
  | write (dir : BitVec 2) (off : Nat) (wdata : Word)
  /-- READ `dir`, `off` (rule R83) -/
  | read (dir : BitVec 2) (off : Nat)
  /-- ISFULL.A `dir`, aggregate mode (rule R90) -/
  | isfullA (dir : BitVec 2)
  /-- ISFULL.L `dir`, `off`, single-lane mode (rule R91) -/
  | isfullL (dir : BitVec 2) (off : Nat)
  /-- ISEMPTY.A `dir`, aggregate mode (rule R92) -/
  | isemptyA (dir : BitVec 2)
  /-- ISEMPTY.L `dir`, `off`, single-lane mode (rule R93) -/
  | isemptyL (dir : BitVec 2) (off : Nat)
  /-- GETCR `dir` (rule R101) -/
  | getcr (dir : BitVec 2)
  /-- CRINC `dir` (rule R102) -/
  | crinc (dir : BitVec 2)
  /-- CRDEC `dir` (rule R103) -/
  | crdec (dir : BitVec 2)
  deriving DecidableEq, Repr

/-- The direction operand of an operation; NOP has none (rule R53, column "uses `dir`"). -/
def Instr.dir? : Instr → Option (BitVec 2)
  | .nop => none
  | .init dir => some dir
  | .write dir _ _ => some dir
  | .read dir _ => some dir
  | .isfullA dir => some dir
  | .isfullL dir _ => some dir
  | .isemptyA dir => some dir
  | .isemptyL dir _ => some dir
  | .getcr dir => some dir
  | .crinc dir => some dir
  | .crdec dir => some dir

/-- The offset operand of an operation, where it uses one (rule R53, column "uses `off`"). -/
def Instr.off? : Instr → Option Nat
  | .write _ off _ => some off
  | .read _ off => some off
  | .isfullL _ off => some off
  | .isemptyL _ off => some off
  | .nop => none
  | .init _ => none
  | .isfullA _ => none
  | .isemptyA _ => none
  | .getcr _ => none
  | .crinc _ => none
  | .crdec _ => none

/-- Whether the operation is one of the three credit operations (rule R100). -/
def Instr.isCredit : Instr → Bool
  | .getcr _ => true
  | .crinc _ => true
  | .crdec _ => true
  | .nop => false
  | .init _ => false
  | .write _ _ _ => false
  | .read _ _ => false
  | .isfullA _ => false
  | .isfullL _ _ => false
  | .isemptyA _ => false
  | .isemptyL _ _ => false

/-- Whether the operation is INIT (rule R81). -/
def Instr.isInit : Instr → Bool
  | .init _ => true
  | .nop => false
  | .write _ _ _ => false
  | .read _ _ => false
  | .isfullA _ => false
  | .isfullL _ _ => false
  | .isemptyA _ => false
  | .isemptyL _ _ => false
  | .getcr _ => false
  | .crinc _ => false
  | .crdec _ => false

/-- The pseudo-operation `INITALL` (rule R65). -/
def initAll : List Instr :=
  [.init 0, .init 1, .init 2]

/-- The pseudo-operation `PUTPKT` (rule R65): one WRITE per offset, with no test between them. -/
def putPkt (dir : BitVec 2) (w0 w1 w2 w3 : Word) : List Instr :=
  [.write dir 0x0 w0, .write dir 0x4 w1, .write dir 0x8 w2, .write dir 0xc w3]

/-- The pseudo-operation `GETPKT` (rule R65): one READ per offset, with no test between them. -/
def getPkt (dir : BitVec 2) : List Instr :=
  [.read dir 0x0, .read dir 0x4, .read dir 0x8, .read dir 0xc]

end Sys2Proof
end

