-- ==== Sys2Proof/WellFormed.lean ====
section
/-! DEFINITION. Which terms of Instr the command port can carry: an offset must fit its 4-bit field (rules R50, R55); and
the static part of the environment's contract (rule R136). -/

namespace Sys2Proof

/-- Whether the offset operand, if there is one, fits the 4-bit field `off` (rule R55). Every other operand fits its
field by its type. -/
def Instr.wf (i : Instr) : Bool :=
  match i.off? with
  | none => true
  | some off => decide (off < 16)

/-- The part of rule R136 that can be read off the operation alone: a recognised direction, one of the four offsets,
credit operations on direction `H2R_REQ` only. An operation that breaks it is still well-formed and runs: it raises the
fatal usage error the spec names. -/
def Instr.obeysContract (i : Instr) : Bool :=
  (i.dir? != some 3) &&
  (i.off? == none || i.off? == some 0x0 || i.off? == some 0x4 || i.off? == some 0x8 || i.off? == some 0xc) &&
  (!i.isCredit || i.dir? == some 0)

end Sys2Proof
end

