-- ==== Sys2Proof/Decode.lean ====
section
/-! DEFINITION. The command decoder, total on the 2^43 command words (rule R61), rejecting the reserved op codes by name
(rule R58); then the encoder with every unused field zero (rules R57, R63), and the match and mask table of rule R63. -/

namespace Sys2Proof

/-- The field `op`, `CW[42:39]` (rule R50). -/
def opField (cw : CommandWord) : BitVec 4 := cw.extractLsb' 39 4

/-- The field `dir`, `CW[38:37]` (rule R50). -/
def dirField (cw : CommandWord) : BitVec 2 := cw.extractLsb' 37 2

/-- The field `per_lane`, `CW[36]` (rule R50). -/
def perLaneField (cw : CommandWord) : Bool := cw.getLsbD 36

/-- The field `off`, `CW[35:32]` (rule R50). -/
def offField (cw : CommandWord) : BitVec 4 := cw.extractLsb' 32 4

/-- The field `wdata`, `CW[31:0]` (rule R50). -/
def wdataField (cw : CommandWord) : Word := cw.extractLsb' 0 32

/-- Why a command word is no operation. -/
inductive DecodeReject where
  /-- `op` is 9 to 15 (rule R58); the step raises BAD_OP -/
  | reservedOp (op : BitVec 4)
  deriving DecidableEq, Repr

/-- What a command word decodes as. -/
inductive Decoded where
  | instr (i : Instr)
  | reject (r : DecodeReject)
  deriving DecidableEq, Repr

/-- The operation the five fields select (rules R51, R53, R54), with the operands that operation uses and no other
(rule R57). -/
def decodeFields (op : BitVec 4) (dir : BitVec 2) (perLane : Bool) (off : BitVec 4) (wdata : Word) : Decoded :=
  match op.toNat with
  | 0 => .instr .nop
  | 1 => .instr (.init dir)
  | 2 => .instr (.write dir off.toNat wdata)
  | 3 => .instr (.read dir off.toNat)
  | 4 => if perLane then .instr (.isfullL dir off.toNat) else .instr (.isfullA dir)
  | 5 => if perLane then .instr (.isemptyL dir off.toNat) else .instr (.isemptyA dir)
  | 6 => .instr (.getcr dir)
  | 7 => .instr (.crinc dir)
  | 8 => .instr (.crdec dir)
  | _ => .reject (.reservedOp op)

/-- What a command word decodes as: every one of the 2^43 words is an operation or a reserved op code (rule R61). -/
def decode (cw : CommandWord) : Decoded :=
  decodeFields (opField cw) (dirField cw) (perLaneField cw) (offField cw) (wdataField cw)

/-- The concatenation of the five fields (rule R50). -/
def assemble (op : BitVec 4) (dir : BitVec 2) (perLane : Bool) (off : BitVec 4) (wdata : Word) : CommandWord :=
  op ++ dir ++ BitVec.ofBool perLane ++ off ++ wdata

/-- The canonical command word of a well-formed operation: op code of rule R51, operands in their fields, every unused
field zero (rule R57). -/
def encode : Instr → CommandWord
  | .nop => assemble 0 0 false 0 0
  | .init dir => assemble 1 dir false 0 0
  | .write dir off wdata => assemble 2 dir false (BitVec.ofNat 4 off) wdata
  | .read dir off => assemble 3 dir false (BitVec.ofNat 4 off) 0
  | .isfullA dir => assemble 4 dir false 0 0
  | .isfullL dir off => assemble 4 dir true (BitVec.ofNat 4 off) 0
  | .isemptyA dir => assemble 5 dir false 0 0
  | .isemptyL dir off => assemble 5 dir true (BitVec.ofNat 4 off) 0
  | .getcr dir => assemble 6 dir false 0 0
  | .crinc dir => assemble 7 dir false 0 0
  | .crdec dir => assemble 8 dir false 0 0

/-- A row of the opcode table of rule R63. -/
structure OpcodeRow where
  mnemonic  : String
  matchBits : CommandWord
  mask      : CommandWord
  deriving DecidableEq, Repr

/-- `(CW & mask) == match` (rule R63). -/
def OpcodeRow.selects (row : OpcodeRow) (cw : CommandWord) : Bool :=
  cw &&& row.mask == row.matchBits

/-- The row of the opcode table that an operation belongs to (rule R63). -/
def Instr.opcodeRow : Instr → OpcodeRow
  | .nop => ⟨"NOP", 0x00000000000, 0x78000000000⟩
  | .init _ => ⟨"INIT", 0x08000000000, 0x78000000000⟩
  | .write _ _ _ => ⟨"WRITE", 0x10000000000, 0x78000000000⟩
  | .read _ _ => ⟨"READ", 0x18000000000, 0x78000000000⟩
  | .isfullA _ => ⟨"ISFULL.A", 0x20000000000, 0x79000000000⟩
  | .isfullL _ _ => ⟨"ISFULL.L", 0x21000000000, 0x79000000000⟩
  | .isemptyA _ => ⟨"ISEMPTY.A", 0x28000000000, 0x79000000000⟩
  | .isemptyL _ _ => ⟨"ISEMPTY.L", 0x29000000000, 0x79000000000⟩
  | .getcr _ => ⟨"GETCR", 0x30000000000, 0x78000000000⟩
  | .crinc _ => ⟨"CRINC", 0x38000000000, 0x78000000000⟩
  | .crdec _ => ⟨"CRDEC", 0x40000000000, 0x78000000000⟩

/-- The bits of a command word that an operation reads: its opcode row's mask and the fields rule R53 says it uses. -/
def Instr.usedBits (i : Instr) : CommandWord :=
  i.opcodeRow.mask |||
  (if i.dir?.isSome then 0x06000000000 else 0) |||
  (if i.off?.isSome then 0x00F00000000 else 0) |||
  (match i with
    | .write _ _ _ => 0x000FFFFFFFF
    | _ => 0)

/-- The command word given by a number of `nbits` bits, bit 0 least significant, bits above `nbits` zero; a command is
one 43-bit word, so bits above 42 stand for nothing (rules R7, R50). -/
def commandOfTable (nbits w : Nat) : CommandWord :=
  BitVec.ofNat 43 (w % 2 ^ nbits)

/-- The operation the decoder reads from the command word numbered `w`; none where it rejects the word or where the
number is no 43-bit command word. -/
def decodeTableWord (nbits w : Nat) : Option Instr :=
  if w % 2 ^ nbits < 2 ^ 43 then
    match decode (commandOfTable nbits w) with
    | .instr i => some i
    | .reject _ => none
  else none

end Sys2Proof
end

