-- ==== Sys2Proof/Config.lean ====
section
/-! DEFINITION. The fixed constants of CORE (rule R4) and the reference value of its one parameter (rule R5).
The spec leaves no value of an operation open, so there is no free value here. -/

namespace Sys2Proof.Config

/-- `MAX_CREDITS`: "the ceiling and reset value for the request-direction credit counter" (rule R4). -/
def maxCredits : Nat := 15

/-- The reference value of the lane capacity `C` (rule R5). The capacity itself is a field of the state, so that
every statement holds for every capacity. -/
def referenceCapacity : Nat := 1

end Sys2Proof.Config
end

