-- ==== Sys2Proof/Machine/State.lean ====
section
/-! DEFINITION. The state of CORE: the whole of rule R10, with the three fields the model adds (the capacity parameter of
rule R5, the command port's pending words, the last response), the state after reset (rule R25), and the reasons a
step could stop. -/

namespace Sys2Proof.Machine

/-- The values of the cause register `S.cause` (rules R19, R111): no fatal error, or the first one that occurred. -/
inductive Cause where
  /-- code 0: no fatal error has occurred -/
  | none
  /-- code 1: operation on a channel that is not initialised (rule R112) -/
  | uninit
  /-- code 2: offset not one of 0x0, 0x4, 0x8, 0xc (rule R113) -/
  | badOffset
  /-- code 3: unrecognised direction (rule R114) -/
  | badDir
  /-- code 4: credit operation on a direction without a counter (rule R115) -/
  | noCredit
  /-- code 5: reserved op code (rule R116) -/
  | badOp
  deriving DecidableEq, Repr

/-- A Lane Queue: `q` is `S.q[d][i]`, element 0 the oldest word (rule R11); `full` is the stored flag `S.full[d][i]`
(rule R13). -/
structure Lane where
  q    : List Word
  full : Bool
  deriving DecidableEq, Repr

/-- The four lanes of a channel (rules R4, R10). -/
structure Lanes where
  lane0 : Lane
  lane1 : Lane
  lane2 : Lane
  lane3 : Lane
  deriving DecidableEq, Repr

/-- The request channel, the only one with a credit counter (rules R10, R18, R125). -/
structure RequestChannel where
  lanes   : Lanes
  /-- `S.credits`, 4 bits, every value legal (rule R18) -/
  credits : BitVec 4
  deriving DecidableEq, Repr

/-- The lifecycle mode of a channel (rule R124), and what the channel holds in it. `uninitialised` is `S.init[d] = 0`:
the channel holds nothing, as rule R25 asks ("holding no lane state at all"). `live` is `S.init[d] = 1`. -/
inductive Lifecycle (α : Type) where
  | uninitialised
  | live (channel : α)
  deriving DecidableEq, Repr

/-- The response to one command (rule R56). `value` is present only where the operation returns one (U4); on the bus an
absent value is 0 (`Response.word`). -/
structure Response where
  fatal : Bool
  ok    : Bool
  value : Option Word
  deriving DecidableEq, Repr

/-- The state of CORE (rule R10), then the model's own three fields. -/
structure State where
  /-- the channel of direction `H2R_REQ` -/
  h2rReq   : Lifecycle RequestChannel
  /-- the channel of direction `R2H_REQ` -/
  r2hReq   : Lifecycle Lanes
  /-- the channel of direction `R2H_RSP` -/
  r2hRsp   : Lifecycle Lanes
  /-- the fatal latch `S.fatal` (rule R19) -/
  fatal    : Bool
  /-- the cause register `S.cause` (rule R19) -/
  cause    : Cause
  /-- the parameter `C`, the one capacity of all twelve lanes (rule R5); no step changes it -/
  capacity : Nat
  /-- the command words the environment presents, next one first (rules R22, R139) -/
  port     : List CommandWord
  /-- the response to the last command, none before the first (rule R56) -/
  rsp      : Option Response
  deriving DecidableEq, Repr

/-- The state right after hardware reset: no channel initialised, `S.fatal = 0`, `S.cause = 0` (rule R25). The capacity
is the reference one (rule R5), no command is presented yet and none has been answered (DESIGN CHOICE, log entries 2 to
4). -/
def State.reset : State where
  h2rReq := .uninitialised
  r2hReq := .uninitialised
  r2hRsp := .uninitialised
  fatal := false
  cause := .none
  capacity := Config.referenceCapacity
  port := []
  rsp := none

/-- Why a step could stop the machine. There is no such reason, and nobody raises one: "for every state and every 43-bit
command word, `step` gives exactly one next state and one response" (rule R9), and a fatal usage error is a next state
with the latch set (rule R118, log entry 6). -/
inductive Fault where
  deriving DecidableEq, Repr

/-- Why a command could have no meaning in this model. -/
inductive Refusal where
  /-- Raised only by an arm of `exec` for an operation without a meaning; no arm is one. Safe: the model stops where the
  hardware goes on. -/
  | notModelled (mnemonic : String)
  deriving DecidableEq, Repr

end Sys2Proof.Machine
end

