-- ==== Sys2Proof/Machine/LaneQueue.lean ====
section
/-! DEFINITION. The Lane Queue primitives (rules R70 to R74) and the capacity-1 lane as a register and a valid bit
(rule R76). Each takes the capacity `C` as its argument where it needs it (rule R5). -/

namespace Sys2Proof.Machine

/-- The lane INIT leaves: empty, full flag 0 (rule R81). -/
def Lane.cleared : Lane := ⟨[], false⟩

/-- `push(L, w) -> (L', ok)` (rule R70). -/
def Lane.push (C : Nat) (L : Lane) (w : Word) : Lane × Bool :=
  if L.q.length = C then (L, false)
  else (⟨L.q ++ [w], decide ((L.q ++ [w]).length = C)⟩, true)

/-- `pop(L) -> (L', w, ok)` (rule R71); the word is present exactly when `ok = 1`. -/
def Lane.pop (C : Nat) (L : Lane) : Lane × Option Word :=
  match L.q with
  | [] => (L, none)
  | w :: rest => (⟨rest, decide (rest.length = C)⟩, some w)

/-- `size(L)` (rule R74). -/
def Lane.size (L : Lane) : Nat := L.q.length

/-- `is_empty(L)` (rules R14, R72). -/
def Lane.isEmpty (L : Lane) : Bool := decide (L.q.length = 0)

/-- `is_full(L)`, the stored flag (rules R13, R73). -/
def Lane.isFull (L : Lane) : Bool := L.full

/-- The capacity-1 lane as hardware: a data register `D` and a valid bit `V` (rule R76). -/
structure OneEntryCell where
  D : Word
  V : Bool
  deriving DecidableEq, Repr

/-- The lane a register and valid bit stand for (rule R76): `L.q = [D]` if `V = 1` and `[]` if `V = 0`; `L.full = V`. -/
def OneEntryCell.lane (c : OneEntryCell) : Lane :=
  ⟨if c.V then [c.D] else [], c.V⟩

/-- Push on the register: succeeds iff `V = 0`, then `D <- w, V <- 1` (rule R76). -/
def OneEntryCell.push (c : OneEntryCell) (w : Word) : OneEntryCell × Bool :=
  if c.V then (c, false) else (⟨w, true⟩, true)

/-- Pop on the register: succeeds iff `V = 1`, returns `D` and sets `V <- 0`, leaving `D` (rule R76). -/
def OneEntryCell.pop (c : OneEntryCell) : OneEntryCell × Option Word :=
  if c.V then (⟨c.D, false⟩, some c.D) else (c, none)

end Sys2Proof.Machine
end

