-- ==== Sys2Proof/Machine/Ops.lean ====
section
/-! DEFINITION. The named operations over the state: the lanes and credits of a channel, INIT's effect (rule R81), the
response to a command (rule R56), taking a fatal usage error and the latch it leaves (rule R118), hardware reset, which
alone undoes it (rules R120, R130), and the command port (rule R22). -/

namespace Sys2Proof.Machine

/-- What a meaning answers. -/
abbrev Answer := Host.Outcome State Fault Refusal

/-- Lane `i` of a channel, `i` = 0 to 3 (rule R11). -/
def Lanes.get (ls : Lanes) (i : Fin 4) : Lane :=
  match i with
  | 0 => ls.lane0
  | 1 => ls.lane1
  | 2 => ls.lane2
  | 3 => ls.lane3

/-- The channel's lanes with lane `i` replaced. -/
def Lanes.set (ls : Lanes) (i : Fin 4) (L : Lane) : Lanes :=
  match i with
  | 0 => { ls with lane0 := L }
  | 1 => { ls with lane1 := L }
  | 2 => { ls with lane2 := L }
  | 3 => { ls with lane3 := L }

/-- The lanes INIT leaves (rules R26, R81). -/
def Lanes.cleared : Lanes :=
  ⟨Lane.cleared, Lane.cleared, Lane.cleared, Lane.cleared⟩

/-- The lanes of the channel of direction `d`, absent while the channel is uninitialised (rule R25). -/
def State.lanes (s : State) (d : Direction) : Lifecycle Lanes :=
  match d with
  | .h2rReq =>
    match s.h2rReq with
    | .uninitialised => .uninitialised
    | .live c => .live c.lanes
  | .r2hReq => s.r2hReq
  | .r2hRsp => s.r2hRsp

/-- `S.init[d]` (rule R17). -/
def State.initialized (s : State) (d : Direction) : Bool :=
  match s.lanes d with
  | .uninitialised => false
  | .live _ => true

/-- Replace the lanes of a live channel; the credits stay (rule R105). -/
def State.withLanes (s : State) (d : Direction) (ls : Lanes) : State :=
  match d with
  | .h2rReq =>
    match s.h2rReq with
    | .uninitialised => s
    | .live c => { s with h2rReq := .live { c with lanes := ls } }
  | .r2hReq => { s with r2hReq := .live ls }
  | .r2hRsp => { s with r2hRsp := .live ls }

/-- `S.credits`, absent while the request channel is uninitialised (rules R18, R25). -/
def State.credits (s : State) : Lifecycle (BitVec 4) :=
  match s.h2rReq with
  | .uninitialised => .uninitialised
  | .live c => .live c.credits

/-- Replace the credits of the live request channel; the lanes stay. -/
def State.withCredits (s : State) (n : BitVec 4) : State :=
  match s.h2rReq with
  | .uninitialised => s
  | .live c => { s with h2rReq := .live { c with credits := n } }

/-- INIT's effect on channel `d` (rules R26, R81): lanes and full flags cleared, live, and for `H2R_REQ` the credits at
`MAX_CREDITS`. -/
def State.initChannel (s : State) (d : Direction) : State :=
  match d with
  | .h2rReq => { s with h2rReq := .live ⟨Lanes.cleared, BitVec.ofNat 4 Config.maxCredits⟩ }
  | .r2hReq => { s with r2hReq := .live Lanes.cleared }
  | .r2hRsp => { s with r2hRsp := .live Lanes.cleared }

/-- The codes of the fatal causes (rule R111). -/
def Cause.code : Cause → BitVec 3
  | .none => 0
  | .uninit => 1
  | .badOffset => 2
  | .badDir => 3
  | .noCredit => 4
  | .badOp => 5

/-- The response `(fatal = 1, ok = 0, no value)` (rule R118). -/
def Response.ofFatal : Response := ⟨true, false, none⟩

/-- The 34 bits of a response: `fatal`, `ok`, `data`, with `data = 0` where there is no value (rule R56). -/
def Response.word (r : Response) : ResponseWord :=
  BitVec.ofBool r.fatal ++ BitVec.ofBool r.ok ++ r.value.getD 0

/-- End a command with the response `rsp(ok, v)` (rule R8). -/
def State.respond (s : State) (ok : Bool) (v : Option Word) : State :=
  { s with rsp := some ⟨false, ok, v⟩ }

/-- Fatal entry with cause `c`, in a state whose latch is clear (rule R118): the latch and the cause register are
written, nothing else, and the response is `(1, 0, no value)`. -/
def State.takeFatal (s : State) (c : Cause) : State :=
  { s with fatal := true, cause := c, rsp := some Response.ofFatal }

/-- What every command does once the latch is set: nothing, and the response is `(1, 0, no value)` (rule R118). -/
def State.answerLatched (s : State) : State :=
  { s with rsp := some Response.ofFatal }

/-- Hardware reset (rule R130): the whole state is discarded. It is the only way out of the fatal latch (rule R120).
The capacity is built in, and the commands not yet presented belong to the environment (rules R5, R22). -/
def State.hardwareReset (s : State) : State :=
  { State.reset with capacity := s.capacity, port := s.port }

/-- The next command word the environment presents, and the state with that word taken from the port (rule R22). -/
def State.fetch (s : State) : Option (CommandWord × State) :=
  match s.port with
  | [] => none
  | cw :: rest => some (cw, { s with port := rest })

/-- The port with `cw` as the word it presents next. -/
def State.present (s : State) (cw : CommandWord) : State :=
  { s with port := cw :: s.port.tail }

end Sys2Proof.Machine
end

