-- ==== Sys2Proof/Machine/Flags.lean ====
section
/-! DEFINITION. The aggregate flags of a channel (rules R15, R16), the zero extensions of rule R56, and the status
outputs (rule R24), which have no value where the spec defines none (U2). -/

namespace Sys2Proof.Machine

/-- `agg_full`: the AND of the four stored full flags (rule R15). -/
def Lanes.aggFull (ls : Lanes) : Bool :=
  ls.lane0.isFull && ls.lane1.isFull && ls.lane2.isFull && ls.lane3.isFull

/-- `agg_empty`: the AND of the four derived empty flags (rule R15). -/
def Lanes.aggEmpty (ls : Lanes) : Bool :=
  ls.lane0.isEmpty && ls.lane1.isEmpty && ls.lane2.isEmpty && ls.lane3.isEmpty

/-- `zext_32` of a flag (rule R8). -/
def flagWord (b : Bool) : Word := (BitVec.ofBool b).setWidth 32

/-- `zext_32` of a credit count (rules R8, R101). -/
def creditWord (n : BitVec 4) : Word := n.setWidth 32

/-- The lanes of channel `d` while its outputs are defined: `S.init[d] = 1` and `S.fatal = 0` (rule R24). -/
def State.shownLanes (s : State) (d : Direction) : Option Lanes :=
  if s.fatal then none
  else
    match s.lanes d with
    | .uninitialised => none
    | .live ls => some ls

/-- Four flags as the bits of a vector, bit `i` for lane `i` (rule R24). -/
def laneBits (f : Lane → Bool) (ls : Lanes) : BitVec 4 :=
  BitVec.ofBool (f ls.lane3) ++ BitVec.ofBool (f ls.lane2) ++ BitVec.ofBool (f ls.lane1) ++ BitVec.ofBool (f ls.lane0)

/-- Output `st_init[d]`, always defined (rule R24). -/
def State.stInit (s : State) (d : Direction) : Bool := s.initialized d

/-- Output `st_lane_full[d][3:0]` (rule R24). -/
def State.stLaneFull (s : State) (d : Direction) : Option (BitVec 4) := (s.shownLanes d).map (laneBits Lane.isFull)

/-- Output `st_lane_empty[d][3:0]` (rule R24). -/
def State.stLaneEmpty (s : State) (d : Direction) : Option (BitVec 4) := (s.shownLanes d).map (laneBits Lane.isEmpty)

/-- Output `st_full[d]` (rule R24). -/
def State.stFull (s : State) (d : Direction) : Option Bool := (s.shownLanes d).map Lanes.aggFull

/-- Output `st_empty[d]` (rule R24). -/
def State.stEmpty (s : State) (d : Direction) : Option Bool := (s.shownLanes d).map Lanes.aggEmpty

/-- Output `st_credits[3:0]`, defined while `H2R_REQ` is live and the latch clear (rule R24). -/
def State.stCredits (s : State) : Option (BitVec 4) :=
  if s.fatal then none
  else
    match s.credits with
    | .uninitialised => none
    | .live n => some n

/-- Output `st_fatal`, always defined (rule R24). -/
def State.stFatal (s : State) : Bool := s.fatal

/-- Output `st_cause[2:0]`, always defined (rule R24). -/
def State.stCause (s : State) : BitVec 3 := s.cause.code

end Sys2Proof.Machine
end

