-- ==== Sys2Proof/Machine/Operands.lean ====
section
/-! DEFINITION. The operands of a command and the checks on them, in the order of the decoding procedure (rule R62) and
of the priority rule R117: fatal latch, direction, credit capability, initialised, offset. Each check either raises its
fatal usage error or hands what it resolved to the rest of the meaning. -/

namespace Sys2Proof.Machine

/-- The direction a `dir` field names; 3 is unrecognised (rule R52). -/
def directionOf (dir : BitVec 2) : Option Direction :=
  if dir = 0 then some .h2rReq
  else if dir = 1 then some .r2hReq
  else if dir = 2 then some .r2hRsp
  else none

/-- The Offset Directory (rules R20, R31): a constant partial function from byte offsets to lane indices. -/
def laneOf (off : Nat) : Option (Fin 4) :=
  if off = 0x0 then some 0
  else if off = 0x4 then some 1
  else if off = 0x8 then some 2
  else if off = 0xc then some 3
  else none

/-- The directory as a decoder of the 4-bit field (rule R32): valid iff `off[1:0] = 0`, then the lane is `off[3:2]`. -/
def laneOfField (off : BitVec 4) : Option (Fin 4) :=
  if off.extractLsb' 0 2 = 0 then some ((off.extractLsb' 2 2).toFin) else none

/-- Line 1 of rule R62: with the latch set no command has an effect (rule R118). -/
def unlessLatched (s : State) (run : Answer) : Answer :=
  if s.fatal then .next s.answerLatched else run

/-- Lines 5 and 6 of rule R62: an unrecognised direction is fatal BAD_DIR (rule R114). -/
def withDirection (dir : BitVec 2) (s : State) (run : Direction → Answer) : Answer :=
  match directionOf dir with
  | none => .next (s.takeFatal .badDir)
  | some d => run d

/-- Line 7 of rule R62: a credit operation on a direction without a counter is fatal NO_CREDIT (rules R100, R115). -/
def withCreditCounter (d : Direction) (s : State) (run : Answer) : Answer :=
  match d with
  | .h2rReq => run
  | .r2hReq => .next (s.takeFatal .noCredit)
  | .r2hRsp => .next (s.takeFatal .noCredit)

/-- Line 8 of rule R62 for an operation on lanes: a channel that is not initialised is fatal UNINIT (rule R112). -/
def withLive (d : Direction) (s : State) (run : Lanes → Answer) : Answer :=
  match s.lanes d with
  | .uninitialised => .next (s.takeFatal .uninit)
  | .live ls => run ls

/-- Line 8 of rule R62 for a credit operation (rule R112). -/
def withLiveCredits (s : State) (run : BitVec 4 → Answer) : Answer :=
  match s.credits with
  | .uninitialised => .next (s.takeFatal .uninit)
  | .live n => run n

/-- Lines 9 and 10 of rule R62: an offset outside the directory is fatal BAD_OFFSET (rule R113). -/
def withLane (off : Nat) (s : State) (run : Fin 4 → Answer) : Answer :=
  match laneOf off with
  | none => .next (s.takeFatal .badOffset)
  | some i => run i

/-- The checks of an operation on a whole channel: latch, direction, initialised. -/
def onChannel (dir : BitVec 2) (s : State) (run : Direction → Lanes → Answer) : Answer :=
  unlessLatched s (withDirection dir s fun d => withLive d s fun ls => run d ls)

/-- The checks of an operation on one lane: latch, direction, initialised, offset. -/
def onLane (dir : BitVec 2) (off : Nat) (s : State) (run : Direction → Lanes → Fin 4 → Answer) : Answer :=
  onChannel dir s fun d ls => withLane off s fun i => run d ls i

/-- The checks of a credit operation: latch, direction, capability, initialised. -/
def onCredits (dir : BitVec 2) (s : State) (run : BitVec 4 → Answer) : Answer :=
  unlessLatched s (withDirection dir s fun d => withCreditCounter d s (withLiveCredits s run))

/-- A reserved op code: fatal BAD_OP, whatever the other fields hold (rules R58, R116). -/
def reservedCommand (s : State) : Answer :=
  unlessLatched s (.next (s.takeFatal .badOp))

end Sys2Proof.Machine
end

