-- ==== Sys2Proof/Machine/Credit.lean ====
section
/-! DEFINITION. The meanings of the credit operations (rules R100 to R105): the counter steps by 1 within 0 to 15 and
holds at its bounds, where the step is refused with `ok = 0`. -/

namespace Sys2Proof.Machine

/-- GETCR: the credit count, zero-extended (rule R101). -/
def execGetcr (dir : BitVec 2) (s : State) : Answer :=
  onCredits dir s fun n => .next (s.respond true (some (creditWord n)))

/-- CRINC: one credit more under the guard `< 15`, else refused (rules R102, R104). -/
def execCrinc (dir : BitVec 2) (s : State) : Answer :=
  onCredits dir s fun n =>
    if n.toNat < Config.maxCredits then .next ((s.withCredits (BitVec.ofNat 4 (n.toNat + 1))).respond true none)
    else .next (s.respond false none)

/-- CRDEC: one credit less under the guard `> 0`, else refused (rules R103, R104). -/
def execCrdec (dir : BitVec 2) (s : State) : Answer :=
  onCredits dir s fun n =>
    if 0 < n.toNat then .next ((s.withCredits (BitVec.ofNat 4 (n.toNat - 1))).respond true none)
    else .next (s.respond false none)

end Sys2Proof.Machine
end

