-- ==== Sys2Proof/Machine/Data.lean ====
section
/-! DEFINITION. The meanings of the data operations NOP, INIT, WRITE, READ (rules R80 to R84). -/

namespace Sys2Proof.Machine

/-- NOP: nothing, `ok = 1`, no value (rule R80). -/
def execNop (s : State) : Answer :=
  unlessLatched s (.next (s.respond true none))

/-- INIT: the channel in its canonical start state, live (rule R81); legal on an uninitialised channel. -/
def execInit (dir : BitVec 2) (s : State) : Answer :=
  unlessLatched s (withDirection dir s fun d => .next ((s.initChannel d).respond true none))

/-- WRITE: push one word on one lane; on a full lane nothing changes and `ok = 0` (rule R82). -/
def execWrite (dir : BitVec 2) (off : Nat) (wdata : Word) (s : State) : Answer :=
  onLane dir off s fun d ls i =>
    .next ((s.withLanes d (ls.set i ((ls.get i).push s.capacity wdata).1)).respond
      ((ls.get i).push s.capacity wdata).2 none)

/-- READ: pop the oldest word of one lane; on an empty lane nothing changes, `ok = 0` and there is no value
(rule R83). -/
def execRead (dir : BitVec 2) (off : Nat) (s : State) : Answer :=
  onLane dir off s fun d ls i =>
    .next ((s.withLanes d (ls.set i ((ls.get i).pop s.capacity).1)).respond
      ((ls.get i).pop s.capacity).2.isSome ((ls.get i).pop s.capacity).2)

end Sys2Proof.Machine
end

