-- ==== Sys2Proof/Machine/Query.lean ====
section
/-! DEFINITION. The meanings of the four flag queries (rules R90 to R95): pure, `ok = 1`, the flag zero-extended. -/

namespace Sys2Proof.Machine

/-- ISFULL.A: whether all four lanes are full (rule R90). -/
def execIsfullA (dir : BitVec 2) (s : State) : Answer :=
  onChannel dir s fun _ ls => .next (s.respond true (some (flagWord ls.aggFull)))

/-- ISFULL.L: whether the named lane is full (rule R91). -/
def execIsfullL (dir : BitVec 2) (off : Nat) (s : State) : Answer :=
  onLane dir off s fun _ ls i => .next (s.respond true (some (flagWord (ls.get i).isFull)))

/-- ISEMPTY.A: whether all four lanes are empty (rule R92). -/
def execIsemptyA (dir : BitVec 2) (s : State) : Answer :=
  onChannel dir s fun _ ls => .next (s.respond true (some (flagWord ls.aggEmpty)))

/-- ISEMPTY.L: whether the named lane is empty (rule R93). -/
def execIsemptyL (dir : BitVec 2) (off : Nat) (s : State) : Answer :=
  onLane dir off s fun _ ls i => .next (s.respond true (some (flagWord (ls.get i).isEmpty)))

end Sys2Proof.Machine
end

