-- ==== Sys2Proof/Machine/Dispatch.lean ====
section
/-! DEFINITION. The meaning of every operation, one arm per constructor of Instr. -/

namespace Sys2Proof.Machine

def exec (i : Instr) (s : State) : Host.Outcome State Fault Refusal :=
  match i with
  -- data operations (rules R80 to R83)
  | .nop => Sys2Proof.Machine.execNop s
  | .init dir => Sys2Proof.Machine.execInit dir s
  | .write dir off wdata => Sys2Proof.Machine.execWrite dir off wdata s
  | .read dir off => Sys2Proof.Machine.execRead dir off s
  -- flag queries (rules R90 to R93)
  | .isfullA dir => Sys2Proof.Machine.execIsfullA dir s
  | .isfullL dir off => Sys2Proof.Machine.execIsfullL dir off s
  | .isemptyA dir => Sys2Proof.Machine.execIsemptyA dir s
  | .isemptyL dir off => Sys2Proof.Machine.execIsemptyL dir off s
  -- credit operations (rules R101 to R103)
  | .getcr dir => Sys2Proof.Machine.execGetcr dir s
  | .crinc dir => Sys2Proof.Machine.execCrinc dir s
  | .crdec dir => Sys2Proof.Machine.execCrdec dir s

end Sys2Proof.Machine
end

