-- ==== Sys2Proof/Machine/Step.lean ====
section
/-! DEFINITION. One step of CORE: the processing of one command word (rules R8, R62), and the machine's step, which takes
the word from the command port (rule R22). -/

namespace Sys2Proof.Machine

/-- The spec's `step(S, cmd)` (rule R8): decode the word and execute what it decodes as; a reserved op code is fatal
BAD_OP (rule R58). The new state's `rsp` is the response. -/
def command (cw : CommandWord) (s : State) : Host.Outcome State Fault Refusal :=
  match decode cw with
  | .instr i => exec i s
  | .reject _ => reservedCommand s

/-- The machine's step: the command word the port presents is taken and processed. Where the environment presents none
nothing changes: "a step without a call changes nothing" (rule R80, log entry 5). -/
def step (s : State) : Host.Outcome State Fault Refusal :=
  match s.fetch with
  | none => .next s
  | some (cw, taken) => command cw taken

/-- The state with the command word numbered `w` presented next at the port. -/
def State.withFetchWord (s : State) (nbits w : Nat) : State :=
  s.present (commandOfTable nbits w)

end Sys2Proof.Machine
end

