-- ==== Sys2Proof/Machine/SourceApi.lean ====
section
/-! DEFINITION. The source's function-call API as commands and responses (rule R66). -/

namespace Sys2Proof.Machine

/-- The code of a direction in the `dir` field (rule R52). -/
def directionCode : Direction → BitVec 2
  | .h2rReq => 0
  | .r2hReq => 1
  | .r2hRsp => 2

/-- A call on the Channel object of one direction (rule R66). In the two queries an absent offset is aggregate mode,
whichever way the source spells it (rules R54, R95; 90_conflicts.md C1). -/
inductive SourceCall where
  | init
  | write (laneOffset : Nat) (word : Word)
  | read (laneOffset : Nat)
  | isFull (laneOffset : Option Nat)
  | isEmpty (laneOffset : Option Nat)
  | getCredits
  | creditIncrement
  | creditDecrement
  deriving DecidableEq, Repr

/-- The command a call on channel `d` maps to (rule R66). -/
def SourceCall.command (d : Direction) : SourceCall → Instr
  | .init => .init (directionCode d)
  | .write off w => .write (directionCode d) off w
  | .read off => .read (directionCode d) off
  | .isFull none => .isfullA (directionCode d)
  | .isFull (some off) => .isfullL (directionCode d) off
  | .isEmpty none => .isemptyA (directionCode d)
  | .isEmpty (some off) => .isemptyL (directionCode d) off
  | .getCredits => .getcr (directionCode d)
  | .creditIncrement => .crinc (directionCode d)
  | .creditDecrement => .crdec (directionCode d)

/-- What a call returns (rule R66). -/
inductive SourceResult where
  /-- the call returns nothing -/
  | done
  /-- the call's `bool` -/
  | bool (b : Bool)
  /-- the call's `bool` and, when true, `out_word` -/
  | boolWord (b : Bool) (outWord : Option Word)
  /-- the call's `int` -/
  | int (n : Nat)
  /-- the process was terminated (rule R118) -/
  | terminated
  deriving DecidableEq, Repr

/-- What the call returns, read off the response to its command (rule R66): `ok` for WRITE, READ, CRINC and CRDEC,
`data[0]` for the queries, `data[3:0]` for GETCR. -/
def SourceCall.result (c : SourceCall) (r : Response) : SourceResult :=
  if r.fatal then .terminated
  else
    match c with
    | .init => .done
    | .write _ _ => .bool r.ok
    | .read _ => .boolWord r.ok r.value
    | .isFull _ => .bool (r.word.getLsbD 0)
    | .isEmpty _ => .bool (r.word.getLsbD 0)
    | .getCredits => .int (r.word.extractLsb' 0 4).toNat
    | .creditIncrement => .bool r.ok
    | .creditDecrement => .bool r.ok

end Sys2Proof.Machine
end

