-- ==== Sys2Proof/Safety.lean ====
section
/-! DEFINITION. What statements about CORE are said in: a run gone wrong (rule R139), the invariant of rule R27, the
fatal cause a command must raise (rule R117), the decoding procedure of rule R62 as one listing, and what a sequence of
commands did (rules R75, R104, R139). -/

namespace Sys2Proof.Machine

/-- "A run has gone wrong exactly when `S.fatal = 1`" (rule R139). -/
abbrev State.wrong (s : State) : Prop := s.fatal = true

/-- (I-LEN) and (I-FULL) of one lane (rule R27). -/
def Lane.sound (C : Nat) (L : Lane) : Bool :=
  decide (L.q.length ≤ C) && (L.full == decide (L.q.length = C))

/-- (I-LEN) and (I-FULL) of a channel's four lanes (rule R27). -/
def Lanes.sound (C : Nat) (ls : Lanes) : Bool :=
  ls.lane0.sound C && ls.lane1.sound C && ls.lane2.sound C && ls.lane3.sound C

/-- A channel's lanes are sound while it is live; an uninitialised channel holds none. -/
def Lifecycle.lanesSound (C : Nat) (c : Lifecycle Lanes) : Bool :=
  match c with
  | .uninitialised => true
  | .live ls => ls.sound C

/-- The invariant: the capacity is positive (rule R5), every lane of every live channel is sound (rule R27), and the
cause register says NONE exactly while the latch is clear (rules R19, R111). (I-CRED) holds by the type of the counter.
(I-XOR) follows. -/
abbrev State.Inv (s : State) : Prop :=
  0 < s.capacity ∧
  Lifecycle.lanesSound s.capacity (s.lanes .h2rReq) = true ∧
  Lifecycle.lanesSound s.capacity (s.lanes .r2hReq) = true ∧
  Lifecycle.lanesSound s.capacity (s.lanes .r2hRsp) = true ∧
  (s.cause = .none ↔ s.fatal = false)

/-- The fatal cause an operation must raise in a state whose latch is clear, by the priority of rule R117, or none. -/
def expectedCause (i : Instr) (s : State) : Option Cause :=
  match i.dir? with
  | none => none
  | some dir =>
    match directionOf dir with
    | none => some .badDir
    | some d =>
      if i.isCredit = true ∧ d ≠ .h2rReq then some .noCredit
      else if i.isInit = false ∧ s.initialized d = false then some .uninit
      else
        match i.off? with
        | none => none
        | some off => if laneOf off = none then some .badOffset else none

/-- The lane an operation names: its direction and its lane index, where both resolve (rules R31, R52). -/
def laneNamed (i : Instr) : Option (Direction × Fin 4) :=
  match i.dir?, i.off? with
  | some dir, some off =>
    match directionOf dir, laneOf off with
    | some d, some j => some (d, j)
    | _, _ => none
  | _, _ => none

/-- The channel an operation names (rule R52). -/
def channelNamed (i : Instr) : Option Direction :=
  i.dir?.bind directionOf

/-- Lane `i` of channel `d`; what this says of an uninitialised channel is used by no line of the listing. -/
def State.laneAt (s : State) (d : Direction) (i : Fin 4) : Lane :=
  match s.lanes d with
  | .uninitialised => Lane.cleared
  | .live ls => ls.get i

/-- `S.credits`; what this says of an uninitialised channel is used by no line of the listing. -/
def State.creditsAt (s : State) : Nat :=
  match s.credits with
  | .uninitialised => 0
  | .live n => n.toNat

/-- Replace lane `i` of a live channel. -/
def State.putLane (s : State) (d : Direction) (i : Fin 4) (L : Lane) : State :=
  match s.lanes d with
  | .uninitialised => s
  | .live ls => s.withLanes d (ls.set i L)

/-- Line 11 of rule R62: the pseudocode of rules R81 to R83, R90 to R93, R101 to R103, over the raw fields. -/
def executeListing (op : Nat) (d : Direction) (perLane : Bool) (i : Fin 4) (wdata : Word) (s : State) : State :=
  let L := s.laneAt d i
  let C := s.capacity
  if op = 1 then (s.initChannel d).respond true none
  else if op = 2 then
    if L.q.length = C then s.respond false none
    else (s.putLane d i ⟨L.q ++ [wdata], decide (L.q.length + 1 = C)⟩).respond true none
  else if op = 3 then
    if L.q = [] then s.respond false none
    else (s.putLane d i ⟨L.q.tail, decide (L.q.length - 1 = C)⟩).respond true L.q.head?
  else if op = 4 then
    if perLane then s.respond true (some (flagWord L.full))
    else s.respond true (some (flagWord
      ((s.laneAt d 0).full && (s.laneAt d 1).full && (s.laneAt d 2).full && (s.laneAt d 3).full)))
  else if op = 5 then
    if perLane then s.respond true (some (flagWord (decide (L.q.length = 0))))
    else s.respond true (some (flagWord
      (decide ((s.laneAt d 0).q.length = 0) && decide ((s.laneAt d 1).q.length = 0) &&
        decide ((s.laneAt d 2).q.length = 0) && decide ((s.laneAt d 3).q.length = 0))))
  else if op = 6 then s.respond true (some (BitVec.ofNat 32 s.creditsAt))
  else if op = 7 then
    if s.creditsAt < 15 then (s.withCredits (BitVec.ofNat 4 (s.creditsAt + 1))).respond true none
    else s.respond false none
  else
    if 0 < s.creditsAt then (s.withCredits (BitVec.ofNat 4 (s.creditsAt - 1))).respond true none
    else s.respond false none

/-- The decoding procedure of rule R62, line by line over the raw fields of the command word; the first line that
applies ends it. -/
def listing (cw : CommandWord) (s : State) : State :=
  let op := (opField cw).toNat
  let dir := dirField cw
  let perLane := perLaneField cw
  let off := offField cw
  let d : Direction := if dir = 0 then .h2rReq else if dir = 1 then .r2hReq else .r2hRsp
  if s.fatal then s.answerLatched
  else if op = 0 then s.respond true none
  else if 9 ≤ op then s.takeFatal .badOp
  else if dir = 3 then s.takeFatal .badDir
  else if (op = 6 ∨ op = 7 ∨ op = 8) ∧ d ≠ .h2rReq then s.takeFatal .noCredit
  else if op ≠ 1 ∧ s.initialized d = false then s.takeFatal .uninit
  else if (op = 2 ∨ op = 3 ∨ ((op = 4 ∨ op = 5) ∧ perLane = true)) ∧ off.extractLsb' 0 2 ≠ 0 then
    s.takeFatal .badOffset
  else executeListing op d perLane (off.extractLsb' 2 2).toFin (wdataField cw) s

/-- The state after an operation. -/
def after (i : Instr) (s : State) : State :=
  match exec i s with
  | .next t => t
  | .fault _ => s
  | .refused _ => s

/-- The state after a sequence of operations: the fold of rule R139. -/
def afterAll (is : List Instr) (s : State) : State :=
  is.foldl (fun t i => after i t) s

/-- The state after one command word. -/
def afterCommand (s : State) (cw : CommandWord) : State :=
  match command cw s with
  | .next t => t
  | .fault _ => s
  | .refused _ => s

/-- Whether the operation answers `ok = 1` in this state (rule R56). -/
def succeeds (i : Instr) (s : State) : Bool :=
  match (after i s).rsp with
  | some r => r.ok
  | none => false

/-- The value the operation returns in this state, if it returns one. -/
def valueOf (i : Instr) (s : State) : Option Word :=
  match (after i s).rsp with
  | some r => r.value
  | none => none

/-- How many operations of a sequence that `p` picks answered `ok = 1`. -/
def okCount (p : Instr → Bool) : List Instr → State → Nat
  | [], _ => 0
  | i :: is, s => (if p i && succeeds i s then 1 else 0) + okCount p is (after i s)

/-- The words that WRITE commands of a sequence put on lane `j` of channel `d`, in order. -/
def wordsWritten (d : Direction) (j : Fin 4) : List Instr → State → List Word
  | [], _ => []
  | i :: is, s =>
    (match i with
      | .write _ _ w => if laneNamed i = some (d, j) ∧ succeeds i s = true then [w] else []
      | _ => []) ++ wordsWritten d j is (after i s)

/-- The words that READ commands of a sequence took from lane `j` of channel `d`, in order. -/
def wordsRead (d : Direction) (j : Fin 4) : List Instr → State → List Word
  | [], _ => []
  | i :: is, s =>
    (match i with
      | .read _ _ => if laneNamed i = some (d, j) then (valueOf i s).toList else []
      | _ => []) ++ wordsRead d j is (after i s)

/-- Push a list of words on a lane, oldest first, with the results. -/
def Lane.pushAll (C : Nat) : List Word → Lane → Lane × List Bool
  | [], L => (L, [])
  | w :: ws, L =>
    let r := Lane.pushAll C ws (L.push C w).1
    (r.1, (L.push C w).2 :: r.2)

/-- Pop a lane `n` times, with the results. -/
def Lane.popAll (C : Nat) : Nat → Lane → Lane × List (Option Word)
  | 0, L => (L, [])
  | n + 1, L =>
    let r := Lane.popAll C n (L.pop C).1
    (r.1, (L.pop C).2 :: r.2)

end Sys2Proof.Machine
end

