-- ==== Sys2Proof/Certificates/Slice0/Obligations.lean ====
section
/-! DEFINITION. The statements about CORE for the provers. Each docstring names the rule of spec/ it formalises.
The fields `capacity`, `port` and `rsp` of the state are the model's own (log entries 2 to 4, DESIGN CHOICE): what a
statement says of them, such as that a command leaves the capacity and takes one word from the port, is the model's. -/

namespace Sys2Proof.Claims

open Sys2Proof.Machine

/-- `s` with nothing changed but the response, which is `(0, ok, v)`. -/
abbrev answered (s : State) (ok : Bool) (v : Option Word) : State :=
  { s with rsp := some ⟨false, ok, v⟩ }

/-- `s` after fatal entry with cause `c` (rule R118): latch and cause written, response `(1, 0, no value)`. -/
abbrev fatallyEntered (s : State) (c : Cause) : State :=
  { s with fatal := true, cause := c, rsp := some ⟨true, false, none⟩ }

/-- A flag as a 32-bit word, 0 or 1 (rule R8, `zext_32`). -/
abbrev bit (p : Prop) [Decidable p] : Word := if p then 1 else 0

/-- Everything but the lanes of channel `d` and the response is the same in `t` as in `s`. -/
abbrev sameButLanes (d : Direction) (s t : State) : Prop :=
  (∀ e, e ≠ d → t.lanes e = s.lanes e) ∧ t.credits = s.credits ∧ t.fatal = s.fatal ∧ t.cause = s.cause ∧
  t.capacity = s.capacity ∧ t.port = s.port

/-- Everything but the credits and the response is the same in `t` as in `s`. -/
abbrev sameButCredits (s t : State) : Prop :=
  (∀ e, t.lanes e = s.lanes e) ∧ t.fatal = s.fatal ∧ t.cause = s.cause ∧ t.capacity = s.capacity ∧ t.port = s.port

/-- The fatal errors of an operation on a whole channel, in priority order, and `body` where none is raised. -/
def channelRule (i : Instr) (dir : BitVec 2) (body : State → Direction → Lanes → Prop) : Prop :=
  ∀ s : State, s.fatal = false →
    (dir = 3 → exec i s = .next (fatallyEntered s .badDir)) ∧
    ∀ d, directionOf dir = some d →
      (s.lanes d = .uninitialised → exec i s = .next (fatallyEntered s .uninit)) ∧
      ∀ ls, s.lanes d = .live ls → body s d ls

/-- The fatal errors of an operation on one lane, in priority order, and `body` where none is raised. -/
def laneRule (i : Instr) (dir : BitVec 2) (off : Nat) (body : State → Direction → Lanes → Fin 4 → Prop) : Prop :=
  channelRule i dir fun s d ls =>
    (off ∉ [0x0, 0x4, 0x8, 0xc] → exec i s = .next (fatallyEntered s .badOffset)) ∧
    ∀ j : Fin 4, off = 4 * j.val → body s d ls j

/-- The fatal errors of a credit operation, in priority order, and `body` where none is raised. -/
def creditRule (i : Instr) (dir : BitVec 2) (body : State → BitVec 4 → Prop) : Prop :=
  ∀ s : State, s.fatal = false →
    (dir = 3 → exec i s = .next (fatallyEntered s .badDir)) ∧
    (dir = 1 ∨ dir = 2 → exec i s = .next (fatallyEntered s .noCredit)) ∧
    (dir = 0 →
      (s.initialized .h2rReq = false → exec i s = .next (fatallyEntered s .uninit)) ∧
      ∀ n, s.credits = .live n → body s n)

end Sys2Proof.Claims

open Sys2Proof Sys2Proof.Machine Sys2Proof.Claims

/-! ## Encoding -/

/-- Rules R50, R51, R55, R57: decoding the canonical word of a well-formed operation gives the operation back, every
operand at every value its field admits. -/
def Obligations.DecodingAnEncodedOperationGivesItBack : Prop :=
  ∀ i : Instr, i.wf = true → decode (encode i) = .instr i

/-- Rules R50, R53: a command word and the canonical word of what it decodes as agree on every bit the operation uses;
what is decoded is well-formed. -/
def Obligations.ReencodingKeepsEveryUsedBit : Prop :=
  ∀ (cw : CommandWord) (i : Instr), decode cw = .instr i →
    i.wf = true ∧ encode i &&& i.usedBits = cw &&& i.usedBits

/-- Rule R57: the fields an operation does not use change neither the next state nor the response, and are zero in the
canonical encoding. -/
def Obligations.UnusedFieldsHaveNoInfluence : Prop :=
  (∀ (cw cw' : CommandWord) (i : Instr), decode cw = .instr i → cw &&& i.usedBits = cw' &&& i.usedBits →
    ∀ (s : State) (rest : List CommandWord),
      step { s with port := cw :: rest } = step { s with port := cw' :: rest }) ∧
  ∀ i : Instr, encode i &&& ~~~i.usedBits = 0

/-- Rule R63: a command word is selected by the table row of the operation it decodes as and by no other row's mask and
match, and a command word is assembled by shifting the fields into place. -/
def Obligations.OpcodeTableSelectsTheDecodedOperation : Prop :=
  (∀ (cw : CommandWord) (i : Instr), decode cw = .instr i → i.opcodeRow.selects cw = true) ∧
  (∀ (cw : CommandWord) (i : Instr), i.opcodeRow.selects cw = true →
    ∃ j, decode cw = .instr j ∧ j.opcodeRow = i.opcodeRow) ∧
  ∀ (op : BitVec 4) (dir : BitVec 2) (perLane : Bool) (off : BitVec 4) (wdata : Word),
    assemble op dir perLane off wdata =
      (op.setWidth 43 <<< 39) ||| (dir.setWidth 43 <<< 37) ||| ((BitVec.ofBool perLane).setWidth 43 <<< 36) |||
      (off.setWidth 43 <<< 32) ||| wdata.setWidth 43

/-- Rules R51, R63: words written out from the encoding, one or more per family, decode as the spec's table says
(95_test_vectors.md, B2). -/
def Obligations.WrittenOutWordsDecode : Prop :=
  decode 0x06F12345678 = .instr .nop ∧
  decode 0x0BF00000001 = .instr (.init 1) ∧
  decode 0x13CDEADBEEF = .instr (.write 1 0xc 0xDEADBEEF) ∧
  decode 0x1A8FFFFFFFF = .instr (.read 1 0x8) ∧
  decode 0x25C00000000 = .instr (.isfullL 2 0xc) ∧
  decode 0x20300000000 = .instr (.isfullA 0) ∧
  decode 0x31F55555555 = .instr (.getcr 0) ∧
  decode 0x41A00000007 = .instr (.crdec 0) ∧
  decode 0x48000000000 = .reject (.reservedOp 9)

/-- Rules R58, R116: a reserved op code raises BAD_OP, cause code 5, whatever the other fields hold. -/
def Obligations.ReservedOpCodesRaiseBadOp : Prop :=
  Cause.badOp.code = 5 ∧
  ∀ (s : State) (cw : CommandWord) (rest : List CommandWord),
    s.port = cw :: rest → s.fatal = false → 9 ≤ (cw >>> 39).toNat →
    step s = .next { s with port := rest, fatal := true, cause := .badOp, rsp := some ⟨true, false, none⟩ }

/-- Rules R31, R32: the Offset Directory, on every byte offset, and the decoder of the 4-bit field. -/
def Obligations.OffsetDirectoryHasFourEntries : Prop :=
  (∀ (off : Nat) (i : Fin 4), laneOf off = some i ↔ (off, i.val) ∈ [(0x0, 0), (0x4, 1), (0x8, 2), (0xc, 3)]) ∧
  ∀ off : BitVec 4, laneOf off.toNat = laneOfField off

/-! ## The step -/

/-- Rule R22: a step takes the word the port presents and is the meaning of what it decodes as; without a word nothing
happens (log entry 5, DESIGN CHOICE). -/
def Obligations.StepRunsTheDecodedOperation : Prop :=
  (∀ s : State, s.port = [] → step s = .next s) ∧
  ∀ (s : State) (cw : CommandWord) (rest : List CommandWord) (i : Instr),
    s.port = cw :: rest → decode cw = .instr i →
    i.wf = true ∧ step s = exec i { s with port := rest }

/-- Rule R62: a step is the decoding procedure, line by line over the raw fields, with the pseudocode of the operation's
rule at line 11. -/
def Obligations.StepFollowsTheDecodingProcedure : Prop :=
  ∀ (s : State) (cw : CommandWord) (rest : List CommandWord),
    s.port = cw :: rest → step s = .next (listing cw { s with port := rest })

/-- Rule R9: for every state and every command word there is exactly one next state and one response, and a command
that does not succeed has no partial effect on any channel. -/
def Obligations.EveryCommandIsAnswered : Prop :=
  ∀ (s : State) (cw : CommandWord) (rest : List CommandWord), s.port = cw :: rest →
    ∃ (t : State) (r : Response), step s = .next t ∧ t.rsp = some r ∧ t.port = rest ∧ t.capacity = s.capacity ∧
      (r.ok = false → t.h2rReq = s.h2rReq ∧ t.r2hReq = s.r2hReq ∧ t.r2hRsp = s.r2hRsp)

/-- Rule R139: the state after a finite run is the fold of the step over its command words. -/
def Obligations.RunIsTheFoldOfItsCommands : Prop :=
  ∀ (cws rest : List CommandWord) (s : State),
    Host.Core.run core cws.length { s with port := cws ++ rest } =
      .next { cws.foldl afterCommand s with port := rest }

/-- Rule R56: the response word's fields; `fatal` is 1 exactly when the latch is set after the command; `ok` is 0
whenever it is; a failure carries no value, and only READ, the flag queries and GETCR ever carry one. -/
def Obligations.ResponseWordIsFatalOkData : Prop :=
  (∀ r : Response, r.word.getLsbD 33 = r.fatal ∧ r.word.getLsbD 32 = r.ok ∧ r.word.extractLsb' 0 32 = r.value.getD 0) ∧
  (∀ (s t : State) (cw : CommandWord) (rest : List CommandWord), s.port = cw :: rest → step s = .next t →
    ∃ r, t.rsp = some r ∧ r.fatal = t.fatal ∧ (r.fatal = true → r.ok = false) ∧ (r.ok = false → r.value = none)) ∧
  ∀ (s t : State) (i : Instr) (w : Word) (r : Response), exec i s = .next t → t.rsp = some r → r.value = some w →
    r.ok = true ∧ ((∃ dir off, i = .read dir off) ∨ (∃ dir, i = .isfullA dir) ∨ (∃ dir off, i = .isfullL dir off) ∨
      (∃ dir, i = .isemptyA dir) ∨ (∃ dir off, i = .isemptyL dir off) ∨ (∃ dir, i = .getcr dir))

/-! ## The Lane Queue -/

/-- Rule R70: push on a full lane changes nothing and answers 0; otherwise it appends the word, recomputes the flag and
answers 1. -/
def Obligations.PushAppendsUnlessFull : Prop :=
  ∀ (C : Nat) (L : Lane) (w : Word),
    (L.q.length = C → L.push C w = (L, false)) ∧
    (L.q.length ≠ C → L.push C w = (⟨L.q ++ [w], decide (L.q.length + 1 = C)⟩, true))

/-- Rule R71: pop of an empty lane changes nothing and gives no word; otherwise it removes and gives the oldest word and
recomputes the flag, which is then 0 in every lane within its capacity. -/
def Obligations.PopTakesTheOldestWord : Prop :=
  ∀ (C : Nat) (L : Lane),
    (L.q = [] → L.pop C = (L, none)) ∧
    ∀ (w : Word) (rest : List Word), L.q = w :: rest →
      L.pop C = (⟨rest, decide (rest.length = C)⟩, some w) ∧ (L.q.length ≤ C → (L.pop C).1.full = false)

/-- Rules R72 to R74: the lane queries; in a sound lane the stored flag says whether the size is the capacity, and at
capacity 1 a lane is exactly one of full and empty. -/
def Obligations.LaneQueriesAgreeWithTheSize : Prop :=
  ∀ (C : Nat) (L : Lane),
    L.size = L.q.length ∧ L.isFull = L.full ∧ (L.isEmpty = true ↔ L.size = 0) ∧
    (L.sound C = true → (L.isFull = true ↔ L.size = C)) ∧
    (L.sound 1 = true → L.isEmpty = !L.isFull)

/-- Rule R75: up to `C` words pushed on an empty lane all succeed, and as many pops give them back in order, bit for
bit, and leave the lane empty. -/
def Obligations.WordsPushedComeBackInOrder : Prop :=
  ∀ (C : Nat) (L : Lane) (ws : List Word), L.q = [] → ws.length ≤ C →
    (L.pushAll C ws).2 = List.replicate ws.length true ∧
    ((L.pushAll C ws).1.popAll C ws.length).2 = ws.map some ∧
    ((L.pushAll C ws).1.popAll C ws.length).1.q = []

/-- Rule R76: the lane of capacity 1 as a data register and a valid bit does what push, pop and the queries do. -/
def Obligations.OneEntryCellRefinesTheLane : Prop :=
  ∀ (c : OneEntryCell) (w : Word),
    c.lane.isEmpty = !c.V ∧ c.lane.isFull = c.V ∧
    ((c.push w).1.lane, (c.push w).2) = c.lane.push 1 w ∧
    ((c.pop).1.lane, (c.pop).2) = c.lane.pop 1

/-! ## Data operations -/

/-- Rule R80: NOP's encoding and effect in every state. -/
def Obligations.NopFollowsItsRule : Prop :=
  (∀ cw : CommandWord, cw &&& 0x78000000000 = 0 ↔ decode cw = .instr .nop) ∧
  (∀ s : State, s.fatal = false → exec .nop s = .next (answered s true none)) ∧
  ∀ s : State, s.fatal = true → exec .nop s = .next { s with rsp := some ⟨true, false, none⟩ }

/-- Rule R81: INIT's encoding, its one fatal error, its effect on the channel, and that nothing else changes. -/
def Obligations.InitFollowsItsRule : Prop :=
  (∀ cw : CommandWord, cw &&& 0x78000000000 = 0x08000000000 → decode cw = .instr (.init (dirField cw))) ∧
  ∀ (dir : BitVec 2) (s : State), s.fatal = false →
    (dir = 3 → exec (.init dir) s = .next (fatallyEntered s .badDir)) ∧
    ∀ d, directionOf dir = some d → ∃ (t : State) (ls : Lanes),
      exec (.init dir) s = .next t ∧ t.rsp = some ⟨false, true, none⟩ ∧
      t.lanes d = .live ls ∧ (∀ j : Fin 4, ls.get j = ⟨[], false⟩) ∧
      t.credits = (if d = .h2rReq then .live 15 else s.credits) ∧
      (∀ e, e ≠ d → t.lanes e = s.lanes e) ∧ t.fatal = s.fatal ∧ t.cause = s.cause ∧ t.capacity = s.capacity ∧
      t.port = s.port

/-- Rule R81: "Idempotent": INIT issued again on the state it answered answers that same state. -/
def Obligations.InitTwiceIsInitOnce : Prop :=
  ∀ (dir : BitVec 2) (s t : State), exec (.init dir) s = .next t → exec (.init dir) t = .next t

/-- Rule R82: WRITE's encoding, its fatal errors in priority order, the refusal on a full lane, and the push, with
everything else unchanged. -/
def Obligations.WriteFollowsItsRule : Prop :=
  (∀ cw : CommandWord, cw &&& 0x78000000000 = 0x10000000000 →
    decode cw = .instr (.write (dirField cw) (offField cw).toNat (wdataField cw))) ∧
  ∀ (dir : BitVec 2) (off : Nat) (w : Word),
    laneRule (.write dir off w) dir off fun s d ls j =>
      ((ls.get j).q.length = s.capacity → exec (.write dir off w) s = .next (answered s false none)) ∧
      ((ls.get j).q.length ≠ s.capacity → ∃ (t : State) (ls' : Lanes),
        exec (.write dir off w) s = .next t ∧ t.rsp = some ⟨false, true, none⟩ ∧
        t.lanes d = .live ls' ∧
        ls'.get j = ⟨(ls.get j).q ++ [w], decide ((ls.get j).q.length + 1 = s.capacity)⟩ ∧
        (∀ k, k ≠ j → ls'.get k = ls.get k) ∧ sameButLanes d s t)

/-- Rule R83: READ's encoding, its fatal errors in priority order, the failure on an empty lane, and the pop, with
everything else unchanged. -/
def Obligations.ReadFollowsItsRule : Prop :=
  (∀ cw : CommandWord, cw &&& 0x78000000000 = 0x18000000000 →
    decode cw = .instr (.read (dirField cw) (offField cw).toNat)) ∧
  ∀ (dir : BitVec 2) (off : Nat),
    laneRule (.read dir off) dir off fun s d ls j =>
      ((ls.get j).q = [] → exec (.read dir off) s = .next (answered s false none)) ∧
      ∀ (w : Word) (rest : List Word), (ls.get j).q = w :: rest → ∃ (t : State) (ls' : Lanes),
        exec (.read dir off) s = .next t ∧ t.rsp = some ⟨false, true, some w⟩ ∧
        t.lanes d = .live ls' ∧ ls'.get j = ⟨rest, decide (rest.length = s.capacity)⟩ ∧
        (∀ k, k ≠ j → ls'.get k = ls.get k) ∧ sameButLanes d s t

/-- Rule R84: WRITE and READ touch no lane but the one their operands name, and nothing of any other channel. -/
def Obligations.WriteAndReadTouchOneLane : Prop :=
  ∀ (i : Instr) (s t : State), (∃ dir off w, i = .write dir off w) ∨ (∃ dir off, i = .read dir off) →
    exec i s = .next t →
    (∀ e ls, s.lanes e = .live ls → ∃ ls', t.lanes e = .live ls' ∧
      ∀ k : Fin 4, laneNamed i ≠ some (e, k) → ls'.get k = ls.get k) ∧
    (∀ e, s.lanes e = .uninitialised → t.lanes e = .uninitialised) ∧
    t.credits = s.credits ∧ t.capacity = s.capacity ∧ t.port = s.port

/-- Rule R41: a READ right after a WRITE to an empty lane gives the word just written and leaves the lane empty. -/
def Obligations.ReadAfterWriteReturnsTheWord : Prop :=
  ∀ (dir : BitVec 2) (off : Nat) (w : Word) (s : State) (d : Direction) (ls : Lanes) (j : Fin 4),
    s.fatal = false → 0 < s.capacity → directionOf dir = some d → laneOf off = some j →
    s.lanes d = .live ls → (ls.get j).q = [] →
    ∃ (t u : State) (ls' : Lanes), exec (.write dir off w) s = .next t ∧ exec (.read dir off) t = .next u ∧
      u.rsp = some ⟨false, true, some w⟩ ∧ u.lanes d = .live ls' ∧ ls'.get j = ⟨[], false⟩

/-- Rules R75 and R27 (I-SIZE), over the commands: for any sequence of operations without an INIT of the channel, the
words a live lane held and those WRITE put on it are, in order, those READ took from it and those it still holds. -/
def Obligations.LaneHoldsWhatWasWrittenAndNotRead : Prop :=
  ∀ (d : Direction) (j : Fin 4) (is : List Instr) (s : State) (ls : Lanes),
    s.lanes d = .live ls → (∀ i, i ∈ is → i.isInit = true → channelNamed i ≠ some d) →
    ∃ ls', (afterAll is s).lanes d = .live ls' ∧
      (ls.get j).q ++ wordsWritten d j is s = wordsRead d j is s ++ (ls'.get j).q

/-! ## Flag queries -/

/-- Rule R90: ISFULL.A's encoding, fatal errors and answer: the AND of the four full flags; nothing else changes. -/
def Obligations.IsfullAFollowsItsRule : Prop :=
  (∀ cw : CommandWord, cw &&& 0x79000000000 = 0x20000000000 → decode cw = .instr (.isfullA (dirField cw))) ∧
  ∀ dir : BitVec 2, channelRule (.isfullA dir) dir fun s _ ls =>
    exec (.isfullA dir) s = .next (answered s true (some (bit (∀ j : Fin 4, (ls.get j).full = true))))

/-- Rule R91: ISFULL.L's encoding, fatal errors and answer: the named lane's full flag; nothing else changes. -/
def Obligations.IsfullLFollowsItsRule : Prop :=
  (∀ cw : CommandWord, cw &&& 0x79000000000 = 0x21000000000 →
    decode cw = .instr (.isfullL (dirField cw) (offField cw).toNat)) ∧
  ∀ (dir : BitVec 2) (off : Nat), laneRule (.isfullL dir off) dir off fun s _ ls j =>
    exec (.isfullL dir off) s = .next (answered s true (some (bit ((ls.get j).full = true))))

/-- Rule R92: ISEMPTY.A's encoding, fatal errors and answer: whether all four lanes are empty; nothing else changes. -/
def Obligations.IsemptyAFollowsItsRule : Prop :=
  (∀ cw : CommandWord, cw &&& 0x79000000000 = 0x28000000000 → decode cw = .instr (.isemptyA (dirField cw))) ∧
  ∀ dir : BitVec 2, channelRule (.isemptyA dir) dir fun s _ ls =>
    exec (.isemptyA dir) s = .next (answered s true (some (bit (∀ j : Fin 4, (ls.get j).q.length = 0))))

/-- Rule R93: ISEMPTY.L's encoding, fatal errors and answer: whether the named lane is empty; nothing else changes. -/
def Obligations.IsemptyLFollowsItsRule : Prop :=
  (∀ cw : CommandWord, cw &&& 0x79000000000 = 0x29000000000 →
    decode cw = .instr (.isemptyL (dirField cw) (offField cw).toNat)) ∧
  ∀ (dir : BitVec 2) (off : Nat), laneRule (.isemptyL dir off) dir off fun s _ ls j =>
    exec (.isemptyL dir off) s = .next (answered s true (some (bit ((ls.get j).q.length = 0))))

/-- Rule R94: a flag query that raises no fatal error changes nothing but the response, answers `ok = 1` and a value 0
or 1, and issued again answers the same. -/
def Obligations.FlagQueriesArePure : Prop :=
  ∀ (i : Instr) (s t : State),
    (∃ dir, i = .isfullA dir) ∨ (∃ dir off, i = .isfullL dir off) ∨ (∃ dir, i = .isemptyA dir) ∨
      (∃ dir off, i = .isemptyL dir off) →
    exec i s = .next t → t.fatal = false →
    (t = answered s true (some 0) ∨ t = answered s true (some 1)) ∧ exec i t = .next t

/-- Rules R90, R92: the aggregate queries answer 1 exactly when all four single-lane queries do. -/
def Obligations.AggregateQueryIsTheAndOfLaneQueries : Prop :=
  ∀ (dir : BitVec 2) (s : State) (d : Direction),
    s.fatal = false → directionOf dir = some d → s.initialized d = true →
    (exec (.isfullA dir) s = .next (answered s true (some 1)) ↔
      ∀ off ∈ [0x0, 0x4, 0x8, 0xc], exec (.isfullL dir off) s = .next (answered s true (some 1))) ∧
    (exec (.isemptyA dir) s = .next (answered s true (some 1)) ↔
      ∀ off ∈ [0x0, 0x4, 0x8, 0xc], exec (.isemptyL dir off) s = .next (answered s true (some 1)))

/-- Rule R91: in a sound state ISFULL.L answers 1 exactly when a WRITE of any word to the same address would fail. -/
def Obligations.IsfullLForetellsARefusedWrite : Prop :=
  ∀ (dir : BitVec 2) (off : Nat) (w : Word) (s : State) (d : Direction) (j : Fin 4),
    s.Inv → s.fatal = false → directionOf dir = some d → laneOf off = some j → s.initialized d = true →
    (exec (.isfullL dir off) s = .next (answered s true (some 1)) ↔
      exec (.write dir off w) s = .next (answered s false none))

/-- Rule R93: ISEMPTY.L answers 1 exactly when a READ of the same address would fail. -/
def Obligations.IsemptyLForetellsAFailedRead : Prop :=
  ∀ (dir : BitVec 2) (off : Nat) (s : State) (d : Direction) (j : Fin 4),
    s.fatal = false → directionOf dir = some d → laneOf off = some j → s.initialized d = true →
    (exec (.isemptyL dir off) s = .next (answered s true (some 1)) ↔
      exec (.read dir off) s = .next (answered s false none))

/-! ## Credit operations -/

/-- Rule R101: GETCR's encoding, fatal errors and answer: the count, zero-extended; nothing else changes. -/
def Obligations.GetcrFollowsItsRule : Prop :=
  (∀ cw : CommandWord, cw &&& 0x78000000000 = 0x30000000000 → decode cw = .instr (.getcr (dirField cw))) ∧
  ∀ dir : BitVec 2, creditRule (.getcr dir) dir fun s n =>
    exec (.getcr dir) s = .next (answered s true (some (BitVec.ofNat 32 n.toNat)))

/-- Rule R102: CRINC's encoding, fatal errors, step up below 15 and refusal at 15; only the credits change. -/
def Obligations.CrincFollowsItsRule : Prop :=
  (∀ cw : CommandWord, cw &&& 0x78000000000 = 0x38000000000 → decode cw = .instr (.crinc (dirField cw))) ∧
  ∀ dir : BitVec 2, creditRule (.crinc dir) dir fun s n =>
    (n.toNat < 15 → ∃ (t : State) (m : BitVec 4), exec (.crinc dir) s = .next t ∧
      t.rsp = some ⟨false, true, none⟩ ∧ t.credits = .live m ∧ m.toNat = n.toNat + 1 ∧ sameButCredits s t) ∧
    (n.toNat = 15 → exec (.crinc dir) s = .next (answered s false none))

/-- Rule R103: CRDEC's encoding, fatal errors, step down above 0 and refusal at 0; only the credits change. -/
def Obligations.CrdecFollowsItsRule : Prop :=
  (∀ cw : CommandWord, cw &&& 0x78000000000 = 0x40000000000 → decode cw = .instr (.crdec (dirField cw))) ∧
  ∀ dir : BitVec 2, creditRule (.crdec dir) dir fun s n =>
    (0 < n.toNat → ∃ (t : State) (m : BitVec 4), exec (.crdec dir) s = .next t ∧
      t.rsp = some ⟨false, true, none⟩ ∧ t.credits = .live m ∧ m.toNat + 1 = n.toNat ∧ sameButCredits s t) ∧
    (n.toNat = 0 → exec (.crdec dir) s = .next (answered s false none))

/-- Rules R100, R115: NO_CREDIT, cause code 4, is raised exactly by the three credit operations on the two directions
without a counter, initialised or not, and no value is returned. -/
def Obligations.CreditOperationsAreGatedByDirection : Prop :=
  Cause.noCredit.code = 4 ∧
  ∀ (i : Instr) (s : State), s.fatal = false →
    (exec i s = .next (fatallyEntered s .noCredit) ↔
      ∃ dir : BitVec 2, (dir = 1 ∨ dir = 2) ∧ (i = .getcr dir ∨ i = .crinc dir ∨ i = .crdec dir))

/-- Rule R104: after an INIT of the request channel and any operations without another, the credits are 15 plus the
successful CRINC minus the successful CRDEC commands. -/
def Obligations.CreditsCountTheSuccessfulSteps : Prop :=
  ∀ (s : State) (is : List Instr), s.fatal = false →
    (∀ i, i ∈ is → i.isInit = true → channelNamed i ≠ some .h2rReq) →
    ∃ n : BitVec 4, (afterAll is (after (.init 0) s)).credits = .live n ∧
      n.toNat + okCount (fun i => decide (i = .crdec 0)) is (after (.init 0) s) =
        15 + okCount (fun i => decide (i = .crinc 0)) is (after (.init 0) s)

/-- Rule R105: only INIT of the request channel, CRINC and CRDEC change the credits. -/
def Obligations.OnlyThreeOperationsChangeTheCredits : Prop :=
  ∀ (i : Instr) (s t : State), exec i s = .next t → t.credits ≠ s.credits →
    i = .init 0 ∨ i = .crinc 0 ∨ i = .crdec 0

/-- Rule R105: no operation but the three credit operations reads the credits: with another count in the live request
channel every other operation gives the same response and the same lanes. -/
def Obligations.OtherOperationsDoNotReadTheCredits : Prop :=
  ∀ (i : Instr) (s t : State) (n m : BitVec 4), i.isCredit = false → s.credits = .live n → exec i s = .next t →
    ∃ u, exec i (s.withCredits m) = .next u ∧ u.rsp = t.rsp ∧ (∀ d, u.lanes d = t.lanes d) ∧
      u.fatal = t.fatal ∧ u.cause = t.cause

/-! ## Fatal usage errors and recoverable failures -/

/-- Rule R117: a command raises at most one fatal error, the first in the order BAD_DIR, NO_CREDIT, UNINIT, BAD_OFFSET
that applies (BAD_OP comes before any operation is named); where none applies the latch and the cause stay. -/
def Obligations.FatalCauseFollowsThePriority : Prop :=
  ∀ (i : Instr) (s : State), s.fatal = false →
    (∀ c, expectedCause i s = some c → exec i s = .next (fatallyEntered s c)) ∧
    (expectedCause i s = none → ∃ t, exec i s = .next t ∧ t.fatal = false ∧ t.cause = s.cause)

/-- Rule R112: UNINIT, cause code 1, is raised exactly by an operation other than NOP and INIT whose direction is
recognised (and, for a credit operation, is `H2R_REQ`) on a channel that is not initialised. -/
def Obligations.UninitIsRaisedExactly : Prop :=
  Cause.uninit.code = 1 ∧
  ∀ (i : Instr) (s : State), s.fatal = false →
    (exec i s = .next (fatallyEntered s .uninit) ↔
      ∃ d, channelNamed i = some d ∧ i.isInit = false ∧ (i.isCredit = true → d = .h2rReq) ∧ s.initialized d = false)

/-- Rule R113: BAD_OFFSET, cause code 2, is raised exactly by WRITE, READ, ISFULL.L or ISEMPTY.L on a recognised
direction and an initialised channel with an offset outside the four. -/
def Obligations.BadOffsetIsRaisedExactly : Prop :=
  Cause.badOffset.code = 2 ∧
  ∀ (i : Instr) (s : State), s.fatal = false →
    (exec i s = .next (fatallyEntered s .badOffset) ↔
      ∃ (dir : BitVec 2) (d : Direction) (off : Nat), directionOf dir = some d ∧ s.initialized d = true ∧
        off ∉ [0x0, 0x4, 0x8, 0xc] ∧
        ((∃ w, i = .write dir off w) ∨ i = .read dir off ∨ i = .isfullL dir off ∨ i = .isemptyL dir off))

/-- Rule R114: BAD_DIR, cause code 3, is raised exactly by an operation other than NOP whose direction field is 3. -/
def Obligations.BadDirIsRaisedExactly : Prop :=
  Cause.badDir.code = 3 ∧
  ∀ (i : Instr) (s : State), s.fatal = false →
    (exec i s = .next (fatallyEntered s .badDir) ↔ i.dir? = some 3)

/-- Rules R112 to R116, R136: an operation that keeps the environment's contract (a recognised direction, one of the
four offsets, credit operations on `H2R_REQ`, no channel operation before INIT) never sets the latch. -/
def Obligations.ObeyingTheContractNeverSetsTheLatch : Prop :=
  ∀ (i : Instr) (s : State), s.fatal = false → i.obeysContract = true →
    (∀ d, channelNamed i = some d → i.isInit = false → s.initialized d = true) →
    ∃ t, exec i s = .next t ∧ t.fatal = false ∧ t.cause = s.cause

/-- Rules R118, R119, R120: a fatal error writes the latch, its cause and the response and nothing else; from then on
every command word is answered `(1, 0, no value)` and changes nothing. -/
def Obligations.FatalEntryIsPreciseAndSticky : Prop :=
  (∀ (s t : State) (cw : CommandWord) (rest : List CommandWord), s.port = cw :: rest → s.fatal = false →
    step s = .next t → t.fatal = true →
    t.cause ≠ .none ∧
    t = { s with port := rest, fatal := true, cause := t.cause, rsp := some ⟨true, false, none⟩ }) ∧
  ∀ (s : State) (cw : CommandWord) (rest : List CommandWord), s.port = cw :: rest → s.fatal = true →
    step s = .next { s with port := rest, rsp := some ⟨true, false, none⟩ }

/-- Rule R121: in a sound state a command answers `ok = 0` without a fatal error in exactly four cases (WRITE to a full
lane, READ of an empty lane, CRINC at 15, CRDEC at 0), and then changes nothing. -/
def Obligations.RecoverableFailuresAreFourAndChangeNothing : Prop :=
  ∀ (i : Instr) (s t : State), s.Inv → s.fatal = false → exec i s = .next t →
    ((t.fatal = false ∧ ∃ r, t.rsp = some r ∧ r.ok = false) ↔ t = answered s false none) ∧
    (t = answered s false none ↔
      (∃ dir off w d ls j, i = .write dir off w ∧ directionOf dir = some d ∧ laneOf off = some j ∧
        s.lanes d = .live ls ∧ (ls.get j).full = true) ∨
      (∃ dir off d ls j, i = .read dir off ∧ directionOf dir = some d ∧ laneOf off = some j ∧
        s.lanes d = .live ls ∧ (ls.get j).q.length = 0) ∨
      (i = .crinc 0 ∧ s.credits = .live 15) ∨ (i = .crdec 0 ∧ s.credits = .live 0))

/-! ## Channels, invariants, reset, outputs -/

/-- Rules R17, R124: a channel becomes live by an INIT of its direction and in no other way, and no command makes it
uninitialised again. -/
def Obligations.ChannelModesChangeByInitOnly : Prop :=
  ∀ (i : Instr) (s t : State) (d : Direction), exec i s = .next t →
    t.initialized d =
      (s.initialized d || (!s.fatal && i.isInit && decide (channelNamed i = some d)))

/-- Rule R21: an operation leaves every channel it does not name unchanged, and the credits unless it names
`H2R_REQ`. -/
def Obligations.OtherChannelsAreUntouched : Prop :=
  ∀ (i : Instr) (s t : State) (e : Direction), exec i s = .next t → channelNamed i ≠ some e →
    t.lanes e = s.lanes e ∧ t.initialized e = s.initialized e ∧ (e = .h2rReq → t.credits = s.credits)

/-- Rule R42: two commands that raise no fatal error, on different channels, or on different lanes of one channel (both
naming one lane), give in either order the same final state and the same two responses. -/
def Obligations.IndependentCommandsCommute : Prop :=
  ∀ (i j : Instr) (s : State), s.fatal = false → expectedCause i s = none → expectedCause j s = none →
    (∃ d e, channelNamed i = some d ∧ channelNamed j = some e ∧ d ≠ e) ∨
      (∃ d a b, laneNamed i = some (d, a) ∧ laneNamed j = some (d, b) ∧ a ≠ b) →
    ∃ si sij sj sji : State, exec i s = .next si ∧ exec j si = .next sij ∧ exec j s = .next sj ∧ exec i sj = .next sji ∧
      sji.rsp = si.rsp ∧ sij.rsp = sj.rsp ∧ { sij with rsp := none } = { sji with rsp := none }

/-- Rules R65, R132: the pseudo-operation INITALL brings every channel to its canonical start state (rule R26), the
credits to 15, and changes nothing else. -/
def Obligations.InitallMakesEveryChannelLive : Prop :=
  ∀ s : State, s.fatal = false →
    (∀ d, ∃ ls, (afterAll initAll s).lanes d = .live ls ∧ ∀ j : Fin 4, ls.get j = ⟨[], false⟩) ∧
    (afterAll initAll s).credits = .live 15 ∧ (afterAll initAll s).fatal = false ∧
    (afterAll initAll s).cause = s.cause ∧ (afterAll initAll s).capacity = s.capacity ∧
    (afterAll initAll s).port = s.port

/-- Rules R65, R85, R135: a packet that PUTPKT puts on four empty lanes is whole to the aggregate query at capacity 1,
GETPKT gets its four words back, each from its lane, and all lanes are then empty. -/
def Obligations.PacketPutIsThePacketGot : Prop :=
  ∀ (dir : BitVec 2) (d : Direction) (w0 w1 w2 w3 : Word) (s : State) (ls : Lanes),
    s.fatal = false → 0 < s.capacity → directionOf dir = some d → s.lanes d = .live ls →
    (∀ j : Fin 4, (ls.get j).q = []) →
    (s.capacity = 1 → exec (.isfullA dir) (afterAll (putPkt dir w0 w1 w2 w3) s) =
      .next (answered (afterAll (putPkt dir w0 w1 w2 w3) s) true (some 1))) ∧
    (∀ j : Fin 4, wordsRead d j (getPkt dir) (afterAll (putPkt dir w0 w1 w2 w3) s) = [#v[w0, w1, w2, w3][j]]) ∧
    ∃ ls', (afterAll (putPkt dir w0 w1 w2 w3 ++ getPkt dir) s).lanes d = .live ls' ∧ ∀ j : Fin 4, (ls'.get j).q = []

/-- Rule R27 (I-LEN, I-FULL), with rule R5's positive capacity and rules R19 and R111 for the cause register: every step
from a state that meets the invariant answers one that does. -/
def Obligations.EveryStepKeepsTheInvariant : Prop :=
  ∀ s t : State, s.Inv → step s = .next t → t.Inv

/-- The state after reset meets the invariant (rules R5, R25; the capacity there is the reference value, log entry 2,
DESIGN CHOICE). -/
def Obligations.ResetMeetsTheInvariant : Prop :=
  State.reset.Inv

/-- Rules R25, R130: after hardware reset, from any state, no channel is initialised, the latch is clear and the cause
is 0. -/
def Obligations.ResetLeavesNothingInitialised : Prop :=
  (∀ d, State.reset.initialized d = false) ∧ State.reset.fatal = false ∧ State.reset.cause.code = 0 ∧
  ∀ s : State, (∀ d, s.hardwareReset.initialized d = false) ∧ s.hardwareReset.fatal = false ∧
    s.hardwareReset.cause.code = 0

/-- Rule R16 (and I-XOR of rule R27): in a sound state the two aggregate flags of a live channel are never both 1, and
where one lane holds a word and another holds none both are 0. -/
def Obligations.PartialPacketsAreNeitherFullNorEmpty : Prop :=
  ∀ (s : State) (d : Direction) (ls : Lanes), s.Inv → s.lanes d = .live ls →
    ¬(ls.aggFull = true ∧ ls.aggEmpty = true) ∧
    ∀ j k : Fin 4, (ls.get j).q ≠ [] → (ls.get k).q = [] → ls.aggFull = false ∧ ls.aggEmpty = false

/-- Rule R24: what each status output shows, and that the outputs of a channel that is not live, and all but three
outputs under the latch, have no value. -/
def Obligations.StatusOutputsShowTheState : Prop :=
  ∀ (s : State) (d : Direction),
    s.stInit d = s.initialized d ∧ s.stFatal = s.fatal ∧ s.stCause = s.cause.code ∧
    (s.fatal = true ∨ s.initialized d = false →
      s.stLaneFull d = none ∧ s.stLaneEmpty d = none ∧ s.stFull d = none ∧ s.stEmpty d = none) ∧
    (s.fatal = true ∨ s.initialized .h2rReq = false → s.stCredits = none) ∧
    (s.fatal = false → ∀ n, s.credits = .live n → s.stCredits = some n) ∧
    (s.fatal = false → ∀ ls, s.lanes d = .live ls →
      s.stFull d = some (decide (∀ j : Fin 4, (ls.get j).full = true)) ∧
      s.stEmpty d = some (decide (∀ j : Fin 4, (ls.get j).q.length = 0)) ∧
      ∃ f e : BitVec 4, s.stLaneFull d = some f ∧ s.stLaneEmpty d = some e ∧
        ∀ j : Fin 4, f.getLsbD j.val = (ls.get j).full ∧ e.getLsbD j.val = decide ((ls.get j).q.length = 0))

/-- Rule R66: what the source's query calls and `get_credits` return on a live channel: the flags, in both modes of both
queries, and the count. -/
def Obligations.SourceCallsReturnFlagsAndCount : Prop :=
  ∀ (s : State) (d : Direction) (ls : Lanes), s.fatal = false → s.lanes d = .live ls →
    (∃ t r, exec ((SourceCall.isFull none).command d) s = .next t ∧ t.rsp = some r ∧
      (SourceCall.isFull none).result r = .bool (decide (∀ j : Fin 4, (ls.get j).full = true))) ∧
    (∃ t r, exec ((SourceCall.isEmpty none).command d) s = .next t ∧ t.rsp = some r ∧
      (SourceCall.isEmpty none).result r = .bool (decide (∀ j : Fin 4, (ls.get j).q.length = 0))) ∧
    (∀ off j, laneOf off = some j →
      ∃ t r, exec ((SourceCall.isFull (some off)).command d) s = .next t ∧ t.rsp = some r ∧
        (SourceCall.isFull (some off)).result r = .bool (ls.get j).full) ∧
    (∀ off j, laneOf off = some j →
      ∃ t r, exec ((SourceCall.isEmpty (some off)).command d) s = .next t ∧ t.rsp = some r ∧
        (SourceCall.isEmpty (some off)).result r = .bool (decide ((ls.get j).q.length = 0))) ∧
    (∀ n, d = .h2rReq → s.credits = .live n →
      ∃ t r, exec (SourceCall.getCredits.command d) s = .next t ∧ t.rsp = some r ∧
        SourceCall.getCredits.result r = .int n.toNat)

/-- Rule R66: what the source's other calls return: `init` nothing, on any channel; on a live channel `write` whether
the lane had room, `read` whether it held a word and that word, and the credit increment and decrement whether the
count could step. -/
def Obligations.SourceCallsThatActReturnTheirSuccess : Prop :=
  ∀ (s : State) (d : Direction), s.fatal = false →
    (∃ t r, exec (SourceCall.init.command d) s = .next t ∧ t.rsp = some r ∧ SourceCall.init.result r = .done) ∧
    ∀ ls, s.lanes d = .live ls →
      (∀ off j w, laneOf off = some j →
        ∃ t r, exec ((SourceCall.write off w).command d) s = .next t ∧ t.rsp = some r ∧
          (SourceCall.write off w).result r = .bool (decide ((ls.get j).q.length ≠ s.capacity))) ∧
      (∀ off j, laneOf off = some j →
        ∃ t r, exec ((SourceCall.read off).command d) s = .next t ∧ t.rsp = some r ∧
          (SourceCall.read off).result r = .boolWord (decide ((ls.get j).q ≠ [])) (ls.get j).q.head?) ∧
      ∀ n, d = .h2rReq → s.credits = .live n →
        (∃ t r, exec (SourceCall.creditIncrement.command d) s = .next t ∧ t.rsp = some r ∧
          SourceCall.creditIncrement.result r = .bool (decide (n.toNat < 15))) ∧
        ∃ t r, exec (SourceCall.creditDecrement.command d) s = .next t ∧ t.rsp = some r ∧
          SourceCall.creditDecrement.result r = .bool (decide (0 < n.toNat))
end

