-- ==== Sys2Proof/Laws/Decode.lean ====
section
/-! SUPPORT. Command words as their five fields (rule R50): the fields of an assembled word, a word as the assembly of its
fields, the bitwise operations field by field, and what each operation's words look like (rule R51). -/

namespace Sys2Proof

variable (op : BitVec 4) (dir : BitVec 2) (perLane : Bool) (off : BitVec 4) (wdata : Word)

@[simp] theorem opField_assemble : opField (assemble op dir perLane off wdata) = op := by
  apply BitVec.eq_of_getLsbD_eq
  intro i hi
  simp only [opField, assemble, BitVec.getLsbD_extractLsb', BitVec.getLsbD_append]
  rw [if_neg, if_neg, if_neg, if_neg] <;> first | omega | skip
  rw [show 39 + i - 32 - 4 - 1 - 2 = i by omega]; simp [hi]

@[simp] theorem dirField_assemble : dirField (assemble op dir perLane off wdata) = dir := by
  apply BitVec.eq_of_getLsbD_eq
  intro i hi
  simp only [dirField, assemble, BitVec.getLsbD_extractLsb', BitVec.getLsbD_append]
  rw [if_neg, if_neg, if_neg, if_pos] <;> first | omega | skip
  rw [show 37 + i - 32 - 4 - 1 = i by omega]; simp [hi]

@[simp] theorem perLaneField_assemble : perLaneField (assemble op dir perLane off wdata) = perLane := by
  simp only [perLaneField, assemble, BitVec.getLsbD_append]
  cases perLane <;> rfl

@[simp] theorem offField_assemble : offField (assemble op dir perLane off wdata) = off := by
  apply BitVec.eq_of_getLsbD_eq
  intro i hi
  simp only [offField, assemble, BitVec.getLsbD_extractLsb', BitVec.getLsbD_append]
  rw [if_neg, if_pos] <;> first | omega | skip
  simp [hi]

@[simp] theorem wdataField_assemble : wdataField (assemble op dir perLane off wdata) = wdata := by
  apply BitVec.eq_of_getLsbD_eq
  intro i hi
  simp only [wdataField, assemble, BitVec.getLsbD_extractLsb', BitVec.getLsbD_append]
  rw [if_pos] <;> first | omega | skip
  simp [hi]

/-- A command word is the concatenation of its five fields (rule R50). -/
theorem assemble_fields (cw : CommandWord) :
    assemble (opField cw) (dirField cw) (perLaneField cw) (offField cw) (wdataField cw) = cw := by
  apply BitVec.eq_of_getLsbD_eq
  intro i hi
  simp only [assemble, BitVec.getLsbD_append, opField, dirField, perLaneField, offField, wdataField,
    BitVec.getLsbD_extractLsb', BitVec.getLsbD_ofBool]
  split
  · simp [*]
  · split
    · rw [show 32 + (i - 32) = i by omega]; simp [*]
    · split
      · rw [show i = 36 by omega]; simp
      · split
        · rw [show 37 + (i - 32 - 4 - 1) = i by omega]; simp [*]
        · rw [show 39 + (i - 32 - 4 - 1 - 2) = i by omega]
          simp [show i - 32 - 4 - 1 - 2 < 4 by omega]

/-- Two command words with the same five fields are the same. -/
theorem command_ext {a b : CommandWord} (h₁ : opField a = opField b) (h₂ : dirField a = dirField b)
    (h₃ : perLaneField a = perLaneField b) (h₄ : offField a = offField b) (h₅ : wdataField a = wdataField b) : a = b := by
  rw [← assemble_fields a, ← assemble_fields b, h₁, h₂, h₃, h₄, h₅]

/-- A word is a given assembly exactly when its fields are the given ones. -/
theorem eq_assemble_iff (cw : CommandWord) :
    cw = assemble op dir perLane off wdata ↔
      opField cw = op ∧ dirField cw = dir ∧ perLaneField cw = perLane ∧ offField cw = off ∧ wdataField cw = wdata := by
  constructor
  · rintro rfl; simp
  · rintro ⟨rfl, rfl, rfl, rfl, rfl⟩; exact (assemble_fields cw).symm

variable (a b : CommandWord)

@[simp] theorem opField_and : opField (a &&& b) = opField a &&& opField b := by simp [opField, BitVec.extractLsb'_and]
@[simp] theorem dirField_and : dirField (a &&& b) = dirField a &&& dirField b := by simp [dirField, BitVec.extractLsb'_and]
@[simp] theorem perLaneField_and : perLaneField (a &&& b) = (perLaneField a && perLaneField b) := by simp [perLaneField]
@[simp] theorem offField_and : offField (a &&& b) = offField a &&& offField b := by simp [offField, BitVec.extractLsb'_and]
@[simp] theorem wdataField_and : wdataField (a &&& b) = wdataField a &&& wdataField b := by
  simp [wdataField, BitVec.extractLsb'_and]

@[simp] theorem decode_assemble :
    decode (assemble op dir perLane off wdata) = decodeFields op dir perLane off wdata := by
  simp [decode]

end Sys2Proof
end

