-- ==== Sys2Proof/Laws/LaneQueue.lean ====
section
/-! SUPPORT. What the lane primitives do (rules R70 to R74), and reading a lane after replacing one. -/

namespace Sys2Proof.Machine

/-- A lane is full, and push refuses it, exactly at the capacity (rule R70). -/
theorem Lane.push_at_capacity {C : Nat} {L : Lane} (h : L.q.length = C) (w : Word) : L.push C w = (L, false) := by
  simp [Lane.push, h]

/-- A push below the capacity appends the word and recomputes the flag (rule R70). -/
theorem Lane.push_below_capacity {C : Nat} {L : Lane} (h : L.q.length ≠ C) (w : Word) :
    L.push C w = (⟨L.q ++ [w], decide (L.q.length + 1 = C)⟩, true) := by
  simp [Lane.push, h]

/-- A pop of an empty lane fails (rule R71). -/
theorem Lane.pop_empty {C : Nat} {L : Lane} (h : L.q = []) : L.pop C = (L, none) := by
  simp [Lane.pop, h]

/-- A pop of a lane that holds words gives the oldest (rule R71). -/
theorem Lane.pop_cons {C : Nat} {L : Lane} {w : Word} {rest : List Word} (h : L.q = w :: rest) :
    L.pop C = (⟨rest, decide (rest.length = C)⟩, some w) := by
  simp [Lane.pop, h]

/-- A lane is empty exactly when a pop fails. -/
theorem Lane.pop_none_iff (C : Nat) (L : Lane) : (L.pop C).2 = none ↔ L.isEmpty = true := by
  unfold Lane.pop Lane.isEmpty; split <;> simp_all

/-- A push keeps a lane sound (rules R12, R27). -/
theorem Lane.push_sound {C : Nat} {L : Lane} (h : L.sound C = true) (w : Word) : (L.push C w).1.sound C = true := by
  by_cases hc : L.q.length = C
  · rw [Lane.push_at_capacity hc]; exact h
  · rw [Lane.push_below_capacity hc]
    simp only [Lane.sound, Bool.and_eq_true, decide_eq_true_eq] at h ⊢
    simp only [List.length_append, List.length_singleton, beq_self_eq_true, and_true]
    omega

/-- A pop keeps a lane sound (rules R12, R27). -/
theorem Lane.pop_sound {C : Nat} {L : Lane} (h : L.sound C = true) : (L.pop C).1.sound C = true := by
  unfold Lane.pop
  split
  · exact h
  · rename_i w rest hq
    simp only [Lane.sound, Bool.and_eq_true, decide_eq_true_eq, hq, List.length_cons] at h ⊢
    simp only [beq_self_eq_true, and_true]
    omega

/-- The cleared lane is sound for every positive capacity (rule R26). -/
theorem Lane.cleared_sound {C : Nat} (h : 0 < C) : Lane.cleared.sound C = true := by
  cases C with
  | zero => exact absurd h (Nat.lt_irrefl 0)
  | succ n => rfl

@[simp] theorem Lanes.get_set_self (ls : Lanes) (i : Fin 4) (L : Lane) : (ls.set i L).get i = L := by
  match i with
  | 0 => rfl
  | 1 => rfl
  | 2 => rfl
  | 3 => rfl

/-- The other lanes stay (rule R84). -/
theorem Lanes.get_set_other (ls : Lanes) {i j : Fin 4} (L : Lane) (h : j ≠ i) : (ls.set i L).get j = ls.get j := by
  revert h
  match i, j with
  | 0, 0 | 1, 1 | 2, 2 | 3, 3 => intro h; exact absurd rfl h
  | 0, 1 | 0, 2 | 0, 3 | 1, 0 | 1, 2 | 1, 3 | 2, 0 | 2, 1 | 2, 3 | 3, 0 | 3, 1 | 3, 2 => intro _; rfl

@[simp] theorem Lanes.set_get (ls : Lanes) (i : Fin 4) : ls.set i (ls.get i) = ls := by
  match i with
  | 0 => rfl
  | 1 => rfl
  | 2 => rfl
  | 3 => rfl

@[simp] theorem Lanes.cleared_get (i : Fin 4) : Lanes.cleared.get i = Lane.cleared := by
  match i with
  | 0 => rfl
  | 1 => rfl
  | 2 => rfl
  | 3 => rfl

/-- The lanes of a channel are sound exactly when each is. -/
theorem Lanes.sound_iff (C : Nat) (ls : Lanes) : ls.sound C = true ↔ ∀ i, (ls.get i).sound C = true := by
  constructor
  · intro h i
    simp only [Lanes.sound, Bool.and_eq_true] at h
    match i with
    | 0 => exact h.1.1.1
    | 1 => exact h.1.1.2
    | 2 => exact h.1.2
    | 3 => exact h.2
  · intro h
    simp only [Lanes.sound, Bool.and_eq_true]
    exact ⟨⟨⟨h 0, h 1⟩, h 2⟩, h 3⟩

/-- Replacing a lane by a sound one keeps the channel sound. -/
theorem Lanes.set_sound {C : Nat} {ls : Lanes} {L : Lane} (h : ls.sound C = true) (hL : L.sound C = true) (i : Fin 4) :
    (ls.set i L).sound C = true := by
  rw [Lanes.sound_iff] at *
  intro j
  by_cases hij : j = i
  · subst hij; simpa using hL
  · rw [Lanes.get_set_other ls L hij]; exact h j

end Sys2Proof.Machine
end

