-- ==== Sys2Proof/Laws/State.lean ====
section
/-! SUPPORT. What each named operation over the state does to each field and to what the accessors read: one lemma per
field per operation, so that no proof unfolds a record update. -/

namespace Sys2Proof.Machine

variable (s : State) (d e : Direction) (ls : Lanes) (n : BitVec 4) (c : Cause) (ok : Bool) (v : Option Word)

/-! Responding (rule R56). -/

@[simp] theorem State.respond_h2rReq : (s.respond ok v).h2rReq = s.h2rReq := rfl
@[simp] theorem State.respond_r2hReq : (s.respond ok v).r2hReq = s.r2hReq := rfl
@[simp] theorem State.respond_r2hRsp : (s.respond ok v).r2hRsp = s.r2hRsp := rfl
@[simp] theorem State.respond_fatal : (s.respond ok v).fatal = s.fatal := rfl
@[simp] theorem State.respond_cause : (s.respond ok v).cause = s.cause := rfl
@[simp] theorem State.respond_capacity : (s.respond ok v).capacity = s.capacity := rfl
@[simp] theorem State.respond_port : (s.respond ok v).port = s.port := rfl
@[simp] theorem State.respond_rsp : (s.respond ok v).rsp = some ⟨false, ok, v⟩ := rfl
@[simp] theorem State.respond_lanes : (s.respond ok v).lanes d = s.lanes d := by cases d <;> rfl
@[simp] theorem State.respond_credits : (s.respond ok v).credits = s.credits := rfl

/-! Taking a fatal usage error (rule R118). -/

@[simp] theorem State.takeFatal_h2rReq : (s.takeFatal c).h2rReq = s.h2rReq := rfl
@[simp] theorem State.takeFatal_r2hReq : (s.takeFatal c).r2hReq = s.r2hReq := rfl
@[simp] theorem State.takeFatal_r2hRsp : (s.takeFatal c).r2hRsp = s.r2hRsp := rfl
@[simp] theorem State.takeFatal_fatal : (s.takeFatal c).fatal = true := rfl
@[simp] theorem State.takeFatal_cause : (s.takeFatal c).cause = c := rfl
@[simp] theorem State.takeFatal_capacity : (s.takeFatal c).capacity = s.capacity := rfl
@[simp] theorem State.takeFatal_port : (s.takeFatal c).port = s.port := rfl
@[simp] theorem State.takeFatal_rsp : (s.takeFatal c).rsp = some Response.ofFatal := rfl
@[simp] theorem State.takeFatal_lanes : (s.takeFatal c).lanes d = s.lanes d := by cases d <;> rfl
@[simp] theorem State.takeFatal_credits : (s.takeFatal c).credits = s.credits := rfl

/-! Answering under the latch (rule R118). -/

@[simp] theorem State.answerLatched_h2rReq : s.answerLatched.h2rReq = s.h2rReq := rfl
@[simp] theorem State.answerLatched_r2hReq : s.answerLatched.r2hReq = s.r2hReq := rfl
@[simp] theorem State.answerLatched_r2hRsp : s.answerLatched.r2hRsp = s.r2hRsp := rfl
@[simp] theorem State.answerLatched_fatal : s.answerLatched.fatal = s.fatal := rfl
@[simp] theorem State.answerLatched_cause : s.answerLatched.cause = s.cause := rfl
@[simp] theorem State.answerLatched_capacity : s.answerLatched.capacity = s.capacity := rfl
@[simp] theorem State.answerLatched_port : s.answerLatched.port = s.port := rfl
@[simp] theorem State.answerLatched_rsp : s.answerLatched.rsp = some Response.ofFatal := rfl
@[simp] theorem State.answerLatched_lanes : s.answerLatched.lanes d = s.lanes d := by cases d <;> rfl
@[simp] theorem State.answerLatched_credits : s.answerLatched.credits = s.credits := rfl

/-! Replacing a channel's lanes. -/

@[simp] theorem State.withLanes_fatal : (s.withLanes d ls).fatal = s.fatal := by
  cases d <;> simp only [State.withLanes]; split <;> rfl
@[simp] theorem State.withLanes_cause : (s.withLanes d ls).cause = s.cause := by
  cases d <;> simp only [State.withLanes]; split <;> rfl
@[simp] theorem State.withLanes_capacity : (s.withLanes d ls).capacity = s.capacity := by
  cases d <;> simp only [State.withLanes]; split <;> rfl
@[simp] theorem State.withLanes_port : (s.withLanes d ls).port = s.port := by
  cases d <;> simp only [State.withLanes]; split <;> rfl
@[simp] theorem State.withLanes_rsp : (s.withLanes d ls).rsp = s.rsp := by
  cases d <;> simp only [State.withLanes]; split <;> rfl

/-- The credits are no part of the lanes (rule R105). -/
@[simp] theorem State.withLanes_credits : (s.withLanes d ls).credits = s.credits := by
  rcases s with ⟨_ | _⟩ <;> cases d <;> rfl

/-- A live channel holds the lanes put into it. -/
theorem State.withLanes_lanes_self {ls₀ : Lanes} (h : s.lanes d = .live ls₀) :
    (s.withLanes d ls).lanes d = .live ls := by
  rcases s with ⟨_ | _⟩ <;> cases d <;> simp_all [State.withLanes, State.lanes]

/-- The other channels keep their lanes (rule R21). -/
theorem State.withLanes_lanes_other (h : e ≠ d) : (s.withLanes d ls).lanes e = s.lanes e := by
  rcases s with ⟨_ | _⟩ <;> cases d <;> cases e <;> first | exact absurd rfl h | rfl

/-- Putting back the lanes a live channel holds changes nothing. -/
theorem State.withLanes_same (h : s.lanes d = .live ls) : s.withLanes d ls = s := by
  rcases s with ⟨_ | ⟨_, _⟩⟩ <;> cases d <;> simp_all [State.withLanes, State.lanes]

/-! Replacing the credits. -/

@[simp] theorem State.withCredits_r2hReq : (s.withCredits n).r2hReq = s.r2hReq := by
  simp only [State.withCredits]; split <;> rfl
@[simp] theorem State.withCredits_r2hRsp : (s.withCredits n).r2hRsp = s.r2hRsp := by
  simp only [State.withCredits]; split <;> rfl
@[simp] theorem State.withCredits_fatal : (s.withCredits n).fatal = s.fatal := by
  simp only [State.withCredits]; split <;> rfl
@[simp] theorem State.withCredits_cause : (s.withCredits n).cause = s.cause := by
  simp only [State.withCredits]; split <;> rfl
@[simp] theorem State.withCredits_capacity : (s.withCredits n).capacity = s.capacity := by
  simp only [State.withCredits]; split <;> rfl
@[simp] theorem State.withCredits_port : (s.withCredits n).port = s.port := by
  simp only [State.withCredits]; split <;> rfl
@[simp] theorem State.withCredits_rsp : (s.withCredits n).rsp = s.rsp := by
  simp only [State.withCredits]; split <;> rfl
@[simp] theorem State.withCredits_lanes : (s.withCredits n).lanes d = s.lanes d := by
  rcases s with ⟨_ | _⟩ <;> cases d <;> rfl

/-- The live request channel holds the credits put into it. -/
theorem State.withCredits_credits {m : BitVec 4} (h : s.credits = .live m) : (s.withCredits n).credits = .live n := by
  rcases s with ⟨_ | _⟩ <;> simp_all [State.withCredits, State.credits]

/-! INIT's effect (rule R81). -/

@[simp] theorem State.initChannel_fatal : (s.initChannel d).fatal = s.fatal := by cases d <;> rfl
@[simp] theorem State.initChannel_cause : (s.initChannel d).cause = s.cause := by cases d <;> rfl
@[simp] theorem State.initChannel_capacity : (s.initChannel d).capacity = s.capacity := by cases d <;> rfl
@[simp] theorem State.initChannel_port : (s.initChannel d).port = s.port := by cases d <;> rfl
@[simp] theorem State.initChannel_rsp : (s.initChannel d).rsp = s.rsp := by cases d <;> rfl
@[simp] theorem State.initChannel_lanes_self : (s.initChannel d).lanes d = .live Lanes.cleared := by cases d <;> rfl

/-- INIT touches nothing of the other channels (rule R81). -/
theorem State.initChannel_lanes_other (h : e ≠ d) : (s.initChannel d).lanes e = s.lanes e := by
  cases d <;> cases e <;> first | exact absurd rfl h | rfl

/-- INIT of the request channel sets the credits to 15 (rule R81). -/
theorem State.initChannel_credits_request : (s.initChannel .h2rReq).credits = .live 15 := rfl

/-- INIT of the other channels does not touch the credits (rule R81). -/
theorem State.initChannel_credits_other (h : d ≠ .h2rReq) : (s.initChannel d).credits = s.credits := by
  cases d <;> first | exact absurd rfl h | rfl

/-! Reading the initialised flag. -/

/-- `S.init[d] = 1` exactly when the channel holds lanes (rules R17, R25). -/
theorem State.initialized_iff : s.initialized d = true ↔ ∃ ls, s.lanes d = .live ls := by
  simp only [State.initialized]; split <;> simp_all

/-- `S.init[d] = 0` exactly when the channel is uninitialised (rules R17, R25). -/
theorem State.not_initialized_iff : s.initialized d = false ↔ s.lanes d = .uninitialised := by
  simp only [State.initialized]; split <;> simp_all

/-- The request channel holds credits exactly when it holds lanes (rule R18). -/
theorem State.credits_live_iff : (∃ m, s.credits = .live m) ↔ s.initialized .h2rReq = true := by
  rcases s with ⟨_ | _⟩ <;> simp [State.credits, State.initialized, State.lanes]

/-! The command port. -/

@[simp] theorem State.present_port (cw : CommandWord) : (s.present cw).port = cw :: s.port.tail := rfl

/-- The word presented is the word fetched. -/
theorem State.fetch_present (cw : CommandWord) :
    (s.present cw).fetch = some (cw, { s with port := s.port.tail }) := rfl

end Sys2Proof.Machine
end

