-- ==== Sys2Proof/Laws/Operands.lean ====
section
/-! SUPPORT. What each chain of checks answers, once: for each chain the ways it can end, with the conditions of each
(rules R62, R117), and the directory and direction tables (rules R31, R52). -/

namespace Sys2Proof.Machine

/-- The directory maps the offset `4 * i` to lane `i`, and nothing else to it (rule R31). -/
theorem laneOf_eq_some_iff (off : Nat) (i : Fin 4) : laneOf off = some i ↔ off = 4 * i.val := by
  unfold laneOf
  constructor
  · intro h
    repeat' split at h
    all_goals cases h
    · exact ‹off = 0x0›
    · exact ‹off = 0x4›
    · exact ‹off = 0x8›
    · exact ‹off = 0xc›
  · rintro rfl
    revert i
    decide

/-- The code 3 is the one unrecognised direction (rule R52). -/
theorem directionOf_eq_none_iff (dir : BitVec 2) : directionOf dir = none ↔ dir = 3 := by
  revert dir; decide

variable {dir : BitVec 2} {off : Nat} {s : State}

/-- With the latch set every chain answers that nothing happens (rule R118). -/
theorem unlessLatched_set (h : s.fatal = true) (run : Answer) : unlessLatched s run = .next s.answerLatched := by
  simp [unlessLatched, h]

/-- With the latch clear the rest decides. -/
theorem unlessLatched_clear (h : s.fatal = false) (run : Answer) : unlessLatched s run = run := by
  simp [unlessLatched, h]

/-- The ways INIT's checks end. -/
theorem withDirection_cases (dir : BitVec 2) (s : State) (run : Direction → Answer) :
    (directionOf dir = none ∧ withDirection dir s run = .next (s.takeFatal .badDir)) ∨
    (∃ d, directionOf dir = some d ∧ withDirection dir s run = run d) := by
  unfold withDirection
  split
  · exact .inl ⟨‹_›, rfl⟩
  · exact .inr ⟨_, ‹_›, rfl⟩

/-- The ways the checks of an operation on a whole channel end (rules R112, R114, R118). -/
theorem onChannel_cases (dir : BitVec 2) (s : State) (run : Direction → Lanes → Answer) :
    (s.fatal = true ∧ onChannel dir s run = .next s.answerLatched) ∨
    (s.fatal = false ∧ directionOf dir = none ∧ onChannel dir s run = .next (s.takeFatal .badDir)) ∨
    (∃ d, s.fatal = false ∧ directionOf dir = some d ∧ s.lanes d = .uninitialised ∧
      onChannel dir s run = .next (s.takeFatal .uninit)) ∨
    (∃ d ls, s.fatal = false ∧ directionOf dir = some d ∧ s.lanes d = .live ls ∧ onChannel dir s run = run d ls) := by
  cases hf : s.fatal
  · rw [onChannel, unlessLatched_clear hf]
    obtain ⟨hd, h⟩ | ⟨d, hd, h⟩ := withDirection_cases dir s fun d => withLive d s fun ls => run d ls
    · exact .inr (.inl ⟨rfl, hd, h⟩)
    · rw [h]
      cases hl : s.lanes d with
      | uninitialised => exact .inr (.inr (.inl ⟨d, rfl, hd, hl, by simp [withLive, hl]⟩))
      | live ls => exact .inr (.inr (.inr ⟨d, ls, rfl, hd, hl, by simp [withLive, hl]⟩))
  · exact .inl ⟨rfl, unlessLatched_set hf _⟩

/-- The ways the checks of an operation on one lane end (rules R112, R113, R114, R118). -/
theorem onLane_cases (dir : BitVec 2) (off : Nat) (s : State) (run : Direction → Lanes → Fin 4 → Answer) :
    (s.fatal = true ∧ onLane dir off s run = .next s.answerLatched) ∨
    (s.fatal = false ∧ directionOf dir = none ∧ onLane dir off s run = .next (s.takeFatal .badDir)) ∨
    (∃ d, s.fatal = false ∧ directionOf dir = some d ∧ s.lanes d = .uninitialised ∧
      onLane dir off s run = .next (s.takeFatal .uninit)) ∨
    (∃ d ls, s.fatal = false ∧ directionOf dir = some d ∧ s.lanes d = .live ls ∧ laneOf off = none ∧
      onLane dir off s run = .next (s.takeFatal .badOffset)) ∨
    (∃ d ls i, s.fatal = false ∧ directionOf dir = some d ∧ s.lanes d = .live ls ∧ laneOf off = some i ∧
      onLane dir off s run = run d ls i) := by
  unfold onLane
  obtain ⟨hf, h⟩ | ⟨hf, hd, h⟩ | ⟨d, hf, hd, hl, h⟩ | ⟨d, ls, hf, hd, hl, h⟩ :=
    onChannel_cases dir s fun d ls => withLane off s fun i => run d ls i
  · exact .inl ⟨hf, h⟩
  · exact .inr (.inl ⟨hf, hd, h⟩)
  · exact .inr (.inr (.inl ⟨d, hf, hd, hl, h⟩))
  · rw [h]
    cases ho : laneOf off with
    | none => exact .inr (.inr (.inr (.inl ⟨d, ls, hf, hd, hl, rfl, by simp [withLane, ho]⟩)))
    | some i => exact .inr (.inr (.inr (.inr ⟨d, ls, i, hf, hd, hl, rfl, by simp [withLane, ho]⟩)))

/-- The ways the checks of a credit operation end (rules R100, R112, R114, R118). -/
theorem onCredits_cases (dir : BitVec 2) (s : State) (run : BitVec 4 → Answer) :
    (s.fatal = true ∧ onCredits dir s run = .next s.answerLatched) ∨
    (s.fatal = false ∧ directionOf dir = none ∧ onCredits dir s run = .next (s.takeFatal .badDir)) ∨
    (∃ d, s.fatal = false ∧ directionOf dir = some d ∧ d ≠ .h2rReq ∧
      onCredits dir s run = .next (s.takeFatal .noCredit)) ∨
    (s.fatal = false ∧ directionOf dir = some .h2rReq ∧ s.credits = .uninitialised ∧
      onCredits dir s run = .next (s.takeFatal .uninit)) ∨
    (∃ n, s.fatal = false ∧ directionOf dir = some .h2rReq ∧ s.credits = .live n ∧ onCredits dir s run = run n) := by
  cases hf : s.fatal
  · rw [onCredits, unlessLatched_clear hf]
    obtain ⟨hd, h⟩ | ⟨d, hd, h⟩ := withDirection_cases dir s fun d => withCreditCounter d s (withLiveCredits s run)
    · exact .inr (.inl ⟨rfl, hd, h⟩)
    · rw [h]
      cases d with
      | r2hReq => exact .inr (.inr (.inl ⟨_, rfl, hd, by decide, rfl⟩))
      | r2hRsp => exact .inr (.inr (.inl ⟨_, rfl, hd, by decide, rfl⟩))
      | h2rReq =>
        cases hc : s.credits with
        | uninitialised => exact .inr (.inr (.inr (.inl ⟨rfl, hd, rfl, by simp [withCreditCounter, withLiveCredits, hc]⟩)))
        | live n => exact .inr (.inr (.inr (.inr ⟨n, rfl, hd, rfl, by simp [withCreditCounter, withLiveCredits, hc]⟩)))
  · exact .inl ⟨rfl, unlessLatched_set hf _⟩

variable {d : Direction} {ls : Lanes} {i : Fin 4} {n : BitVec 4}

/-- An operation on a live channel runs. -/
theorem onChannel_live (hf : s.fatal = false) (hd : directionOf dir = some d) (hl : s.lanes d = .live ls)
    (run : Direction → Lanes → Answer) : onChannel dir s run = run d ls := by
  simp [onChannel, unlessLatched, withDirection, withLive, hf, hd, hl]

/-- An operation on one lane of a live channel runs. -/
theorem onLane_live (hf : s.fatal = false) (hd : directionOf dir = some d) (hl : s.lanes d = .live ls)
    (ho : laneOf off = some i) (run : Direction → Lanes → Fin 4 → Answer) : onLane dir off s run = run d ls i := by
  simp [onLane, onChannel, unlessLatched, withDirection, withLive, withLane, hf, hd, hl, ho]

/-- A credit operation on the live request channel runs. -/
theorem onCredits_live (hf : s.fatal = false) (hd : directionOf dir = some .h2rReq) (hc : s.credits = .live n)
    (run : BitVec 4 → Answer) : onCredits dir s run = run n := by
  simp [onCredits, unlessLatched, withDirection, withCreditCounter, withLiveCredits, hf, hd, hc]

end Sys2Proof.Machine
end

