-- ==== Sys2Proof/Laws/PerInstr.lean ====
section
/-! SUPPORT. A statement about every operation as syntax, one lemma per constructor: the canonical command word of an
operation, whatever its operands, is selected by the operation's own row of the opcode table (rules R57, R63). -/

namespace Sys2Proof.Laws.EncodingIsSelected

/-- The operation's opcode-table row selects its canonical command word (rule R63, `(CW & mask) == match`). -/
def Statement (i : Instr) : Prop :=
  i.opcodeRow.selects (encode i) = true

/-- A row that tests the op code alone selects every word with that op code. -/
theorem selects_op (name : String) (op : BitVec 4) (dir : BitVec 2) (perLane : Bool) (off : BitVec 4) (wdata : Word) :
    (⟨name, assemble op 0 false 0 0, assemble 15 0 false 0 0⟩ : OpcodeRow).selects
      (assemble op dir perLane off wdata) = true := by
  refine beq_iff_eq.2 (command_ext ?_ ?_ ?_ ?_ ?_) <;> simp
  exact BitVec.and_allOnes

/-- A row that tests the op code and the mode bit selects every word with that op code and mode. -/
theorem selects_mode (name : String) (op : BitVec 4) (dir : BitVec 2) (perLane : Bool) (off : BitVec 4) (wdata : Word) :
    (⟨name, assemble op 0 perLane 0 0, assemble 15 0 true 0 0⟩ : OpcodeRow).selects
      (assemble op dir perLane off wdata) = true := by
  refine beq_iff_eq.2 (command_ext ?_ ?_ ?_ ?_ ?_) <;> simp
  exact BitVec.and_allOnes

theorem nop : Statement .nop := selects_op "NOP" 0 0 false 0 0

theorem init (dir : BitVec 2) : Statement (.init dir) := selects_op "INIT" 1 dir false 0 0

theorem write (dir : BitVec 2) (off : Nat) (wdata : Word) : Statement (.write dir off wdata) :=
  selects_op "WRITE" 2 dir false (BitVec.ofNat 4 off) wdata

theorem read (dir : BitVec 2) (off : Nat) : Statement (.read dir off) :=
  selects_op "READ" 3 dir false (BitVec.ofNat 4 off) 0

theorem isfullA (dir : BitVec 2) : Statement (.isfullA dir) := selects_mode "ISFULL.A" 4 dir false 0 0

theorem isfullL (dir : BitVec 2) (off : Nat) : Statement (.isfullL dir off) :=
  selects_mode "ISFULL.L" 4 dir true (BitVec.ofNat 4 off) 0

theorem isemptyA (dir : BitVec 2) : Statement (.isemptyA dir) := selects_mode "ISEMPTY.A" 5 dir false 0 0

theorem isemptyL (dir : BitVec 2) (off : Nat) : Statement (.isemptyL dir off) :=
  selects_mode "ISEMPTY.L" 5 dir true (BitVec.ofNat 4 off) 0

theorem getcr (dir : BitVec 2) : Statement (.getcr dir) := selects_op "GETCR" 6 dir false 0 0

theorem crinc (dir : BitVec 2) : Statement (.crinc dir) := selects_op "CRINC" 7 dir false 0 0

theorem crdec (dir : BitVec 2) : Statement (.crdec dir) := selects_op "CRDEC" 8 dir false 0 0

end Sys2Proof.Laws.EncodingIsSelected
end

