-- ==== Sys2Proof/Machine/Assembler.lean ====
section
/-! DEFINITION. The assembler of rule R64, with the pseudo-operations of rule R65: the text of a command file, as
characters, to its command words. A line the syntax does not allow has no words (`none`). -/

namespace Sys2Proof.Machine

/-- Cut a text at every character for which `sep` holds. -/
def cutAt (sep : Char → Bool) (text : List Char) : List (List Char) :=
  text.foldr
    (fun c parts =>
      if sep c then [] :: parts
      else
        match parts with
        | [] => [[c]]
        | p :: rest => (c :: p) :: rest)
    [[]]

/-- Whether a character is white space inside a line. -/
def isBlank (c : Char) : Bool := c == ' ' || c == '\t' || c == '\r'

/-- A text without the white space around it. -/
def strip (text : List Char) : List Char :=
  ((text.dropWhile isBlank).reverse.dropWhile isBlank).reverse

/-- The value of a digit in the given base. -/
def digitValue (base : Nat) (c : Char) : Option Nat :=
  let v :=
    if '0'.toNat ≤ c.toNat ∧ c.toNat ≤ '9'.toNat then c.toNat - '0'.toNat
    else if 'a'.toNat ≤ c.toNat ∧ c.toNat ≤ 'f'.toNat then c.toNat - 'a'.toNat + 10
    else base
  if v < base then some v else none

/-- The value of a run of digits, most significant first. -/
def digitsValue (base : Nat) (ds : List Char) : Option Nat :=
  ds.foldl (fun n d => n.bind fun m => (digitValue base d).map fun v => m * base + v) (some 0)

/-- A number of the assembler in lower case: decimal, or hexadecimal after `0x` (rule R7). -/
def parseNumber (t : List Char) : Option Nat :=
  match t with
  | [] => none
  | ['0', 'x'] => none
  | '0' :: 'x' :: ds => digitsValue 16 ds
  | ds => digitsValue 10 ds

/-- A `<dir>`: a name or a number 0 to 3 (rule R64). -/
def parseDir (t : List Char) : Option (BitVec 2) :=
  if t = "h2r_req".toList then some 0
  else if t = "r2h_req".toList then some 1
  else if t = "r2h_rsp".toList then some 2
  else (parseNumber t).bind fun n => if n < 4 then some (BitVec.ofNat 2 n) else none

/-- An `<off>`: a number 0 to 15 (rule R64). -/
def parseOff (t : List Char) : Option Nat :=
  (parseNumber t).bind fun n => if n < 16 then some n else none

/-- A `<word>`: a number 0 to 0xFFFFFFFF (rule R64). -/
def parseWord (t : List Char) : Option Word :=
  (parseNumber t).bind fun n => if n < 2 ^ 32 then some (BitVec.ofNat 32 n) else none

/-- A raw command word: `0x` and 11 hexadecimal digits (rule R64). -/
def parseRaw (t : List Char) : Option CommandWord :=
  match t with
  | '0' :: 'x' :: ds =>
    if ds.length = 11 then (digitsValue 16 ds).bind fun n => if n < 2 ^ 43 then some (BitVec.ofNat 43 n) else none
    else none
  | _ => none

/-- The operations a line's mnemonic and operands stand for (rules R64, R65). -/
def parseOperation (mnemonic : List Char) (operands : List (List Char)) : Option (List Instr) :=
  match operands with
  | [] =>
    if mnemonic = "nop".toList then some [.nop]
    else if mnemonic = "initall".toList then some initAll
    else none
  | [d] =>
    (parseDir d).bind fun dir =>
      if mnemonic = "init".toList then some [.init dir]
      else if mnemonic = "isfull.a".toList then some [.isfullA dir]
      else if mnemonic = "isempty.a".toList then some [.isemptyA dir]
      else if mnemonic = "getcr".toList then some [.getcr dir]
      else if mnemonic = "crinc".toList then some [.crinc dir]
      else if mnemonic = "crdec".toList then some [.crdec dir]
      else if mnemonic = "getpkt".toList then some (getPkt dir)
      else none
  | [d, o] =>
    (parseDir d).bind fun dir => (parseOff o).bind fun off =>
      if mnemonic = "read".toList then some [.read dir off]
      else if mnemonic = "isfull.l".toList then some [.isfullL dir off]
      else if mnemonic = "isempty.l".toList then some [.isemptyL dir off]
      else none
  | [d, o, w] =>
    (parseDir d).bind fun dir => (parseOff o).bind fun off => (parseWord w).bind fun word =>
      if mnemonic = "write".toList then some [.write dir off word] else none
  | [d, a, b, c, e] =>
    (parseDir d).bind fun dir => (parseWord a).bind fun w0 => (parseWord b).bind fun w1 =>
      (parseWord c).bind fun w2 => (parseWord e).bind fun w3 =>
        if mnemonic = "putpkt".toList then some (putPkt dir w0 w1 w2 w3) else none
  | _ => none

/-- The command words of one line (rule R64): nothing for a blank or comment line, one word for `.cw`, else the
canonical words of its operations. Upper and lower case are the same. -/
def assembleLine (line : List Char) : Option (List CommandWord) :=
  let body := strip ((line.takeWhile (· != '#')).map Char.toLower)
  let mnemonic := body.takeWhile (fun c => !isBlank c)
  let rest := strip (body.dropWhile (fun c => !isBlank c))
  let operands := if rest.isEmpty then [] else (cutAt (· == ',') rest).map strip
  if body.isEmpty then some []
  else if mnemonic = ".cw".toList then
    match operands with
    | [raw] => (parseRaw raw).map fun cw => [cw]
    | _ => none
  else (parseOperation mnemonic operands).map fun is => is.map encode

/-- The command words of a file, one command per line (rule R64). -/
def assembleText (text : List Char) : Option (List CommandWord) :=
  (cutAt (· == '\n') text).foldr
    (fun line rest => (assembleLine line).bind fun ws => rest.map fun more => ws ++ more) (some [])

end Sys2Proof.Machine
end

