-- ==== Sys2Proof/Tests/Slice0.lean ====
section
/-! SUPPORT. The model's own tests. Expected values come from spec/95_test_vectors.md (the vector is named), from the
encoding tables of spec/30_encoding.md, or by hand from the rule named. Then, for every statement with hypotheses, a
witness that meets them, clause by clause. -/

namespace Sys2Proof.Tests

open Sys2Proof.Machine Sys2Proof.Claims

/-! ## Small states -/

/-- A lane holding these words, its full flag as (I-FULL) of rule R27 says. -/
def laneOfWords (C : Nat) (q : List Word) : Lane := ⟨q, decide (q.length = C)⟩

/-- Four lanes at capacity 1. -/
def lanes (a b c d : List Word) : Lanes := ⟨laneOfWords 1 a, laneOfWords 1 b, laneOfWords 1 c, laneOfWords 1 d⟩

/-- The request channel live, the other two not, the latch clear, capacity 1. -/
def request (ls : Lanes) (credits : BitVec 4) : State := { State.reset with h2rReq := .live ⟨ls, credits⟩ }

/-- The start state of the vectors V-X of B7. -/
def startX : State := request (lanes [0x1] [] [] []) 15

/-- The state after V-X1: the latch set, cause BAD_OFFSET. -/
def afterX1 : State := { startX with fatal := true, cause := .badOffset }

/-- All three channels live, lane 3 of `R2H_RSP` holding a word, 7 credits. -/
def allLive : State :=
  { request (lanes [] [] [] []) 7 with r2hReq := .live (lanes [] [] [] []), r2hRsp := .live (lanes [] [] [] [0x9]) }

/-- One step on a command word, the next state. -/
def ran (w : Nat) (s : State) : Option State :=
  match step (s.withFetchWord 43 w) with
  | .next t => some t
  | .fault _ => none
  | .refused _ => none

/-- One step on a command word: the response as `(fatal, ok, data)`. -/
def said (w : Nat) (s : State) : Option (Bool × Bool × Word) :=
  ((ran w s).bind State.rsp).map fun r => (r.fatal, r.ok, r.value.getD 0)

/-- One step on a command word: the lanes of a channel after it. -/
def lanesAfter (w : Nat) (s : State) (d : Direction) : Option (Lifecycle Lanes) := (ran w s).map fun t => t.lanes d

/-- One step on a command word: the credits after it. -/
def creditsAfter (w : Nat) (s : State) : Option (Lifecycle (BitVec 4)) := (ran w s).map State.credits

/-- One step on a command word: the latch, the cause code, and whether nothing else but the response changed. -/
def latchAfter (w : Nat) (s : State) : Option (Bool × BitVec 3 × Bool) :=
  (ran w s).map fun t =>
    (t.fatal, t.cause.code, decide ({ t with fatal := s.fatal, cause := s.cause, rsp := s.rsp } = s))

/-! ## Well-formedness (rules R50, R55, R136) -/

theorem test_wf_accepts : (Instr.write 1 0xf 0xFFFFFFFF).wf = true ∧ (Instr.isfullA 3).wf = true := by decide
theorem test_wf_refuses_write_offset : (Instr.write 0 16 0).wf = false := by decide
theorem test_wf_refuses_read_offset : (Instr.read 0 16).wf = false := by decide
theorem test_wf_refuses_isfull_offset : (Instr.isfullL 0 0x10).wf = false := by decide
theorem test_wf_refuses_isempty_offset : (Instr.isemptyL 0 0xFFFFFFFC).wf = false := by decide
theorem test_contract :
    (Instr.read 2 0xc).obeysContract = true ∧ (Instr.init 3).obeysContract = false ∧
    (Instr.read 2 0xe).obeysContract = false ∧ (Instr.crinc 1).obeysContract = false := by decide

/-! ## Decoding, words written out from rules R50, R51, R63 (vectors B2, B8) -/

theorem test_decode_nop : decode 0x06F12345678 = .instr .nop := by decide
theorem test_decode_init : decode 0x09FFFFFFFFF = .instr (.init 0) := by decide
theorem test_decode_write : decode 0x13CDEADBEEF = .instr (.write 1 0xc 0xDEADBEEF) := by decide
theorem test_decode_read : decode 0x190DEADBEEF = .instr (.read 0 0x0) := by decide
theorem test_decode_isfullA : decode 0x24F00000000 = .instr (.isfullA 2) := by decide
theorem test_decode_isfullL : decode 0x25C00000000 = .instr (.isfullL 2 0xc) := by decide
theorem test_decode_isemptyA : decode 0x2A000000000 = .instr (.isemptyA 1) := by decide
theorem test_decode_isemptyL : decode 0x2B800000000 = .instr (.isemptyL 1 0x8) := by decide
theorem test_decode_getcr : decode 0x31F55555555 = .instr (.getcr 0) := by decide
theorem test_decode_crinc : decode 0x39A00000000 = .instr (.crinc 0) := by decide
theorem test_decode_crdec : decode 0x41A00000007 = .instr (.crdec 0) := by decide
theorem test_decode_reserved :
    decode 0x48000000000 = .reject (.reservedOp 9) ∧ decode 0x7FFFFFFFFFF = .reject (.reservedOp 15) := by decide
/-- The five fields bit by bit: op 0010, dir 01, per_lane 0, off 0100, wdata 1 (B2, `WRITE r2h_req, 0x4, 0x00000001`). -/
theorem test_decode_bits :
    decode 0b0010010010000000000000000000000000000000001 = .instr (.write 1 0x4 1) := by decide
theorem test_encode :
    encode (.write 2 0xc 0xFFFFFFFF) = 0x14CFFFFFFFF ∧ encode (.isfullL 0 0x4) = 0x21400000000 ∧
    encode (.isemptyA 1) = 0x2A000000000 ∧ encode (.crdec 2) = 0x44000000000 := by decide
theorem test_decodeTableWord :
    decodeTableWord 48 0x40000000000 = some (.crdec 0) ∧ decodeTableWord 48 0x78000000000 = none := by decide

/-! ## One step per operation -/

theorem test_nop : said 0x00000000000 startX = some (false, true, 0) ∧ lanesAfter 0 startX .h2rReq = some (startX.lanes .h2rReq) := by
  decide
/-- V-Y1: after a fatal error NOP is answered as fatal. -/
theorem test_nop_latched : said 0x00000000000 afterX1 = some (true, false, 0) := by decide

/-- V-D2. -/
theorem test_init_request :
    lanesAfter 0x08000000000 (request (lanes [0xA] [0xB] [] []) 7) .h2rReq = some (.live (lanes [] [] [] [])) ∧
    creditsAfter 0x08000000000 (request (lanes [0xA] [0xB] [] []) 7) = some (.live 15) := by decide
/-- V-D3, V-X9: INIT of another channel leaves the credits; direction 3 is BAD_DIR. -/
theorem test_init_other :
    creditsAfter 0x0A000000000 (request (lanes [0xA] [] [] []) 7) = some (.live 7) ∧
    latchAfter 0x0E000000000 startX = some (true, 3, true) := by decide

/-- V-D5. -/
theorem test_write :
    lanesAfter 0x1080000CAFE (request (lanes [] [] [] []) 15) .h2rReq = some (.live (lanes [] [] [0xCAFE] [])) := by
  decide
/-- V-D8, V-X20: a full lane is refused without effect; on the same lane a misaligned offset is fatal. -/
theorem test_write_refused :
    said 0x10000000009 startX = some (false, false, 0) ∧ latchAfter 0x10000000009 startX = some (false, 0, true) ∧
    latchAfter 0x10600000009 startX = some (true, 2, true) := by decide

/-- V-D9. -/
theorem test_read :
    said 0x18400000000 (request (lanes [0x1] [0x2] [0x3] [0x4]) 15) = some (false, true, 2) ∧
    lanesAfter 0x18400000000 (request (lanes [0x1] [0x2] [0x3] [0x4]) 15) .h2rReq =
      some (.live (lanes [0x1] [] [0x3] [0x4])) := by decide
/-- V-D10, V-X10: an empty lane is a failure without effect; direction 3 comes before the bad offset. -/
theorem test_read_empty :
    said 0x18400000000 startX = some (false, false, 0) ∧ latchAfter 0x18400000000 startX = some (false, 0, true) ∧
    latchAfter 0x1E200000000 startX = some (true, 3, true) := by decide

/-- B5, patterns `F F F F` and `F F F -`. -/
theorem test_isfullA :
    said 0x20000000000 (request (lanes [0x1] [0x2] [0x3] [0x4]) 15) = some (false, true, 1) ∧
    said 0x20000000000 (request (lanes [0x1] [0x2] [0x3] []) 15) = some (false, true, 0) := by decide
/-- V-X6, V-X14: the offset is ignored; a channel that is not initialised is UNINIT. -/
theorem test_isfullA_offset_ignored :
    said 0x20300000000 startX = some (false, true, 0) ∧ latchAfter 0x24000000000 startX = some (true, 1, true) := by
  decide
/-- B5, pattern `F - - -`: offsets 0x0 and 0x4. -/
theorem test_isfullL :
    said 0x21000000000 startX = some (false, true, 1) ∧ said 0x21400000000 startX = some (false, true, 0) := by decide
/-- V-X3. -/
theorem test_isfullL_bad_offset : latchAfter 0x21300000000 startX = some (true, 2, true) := by decide
/-- B5, patterns `- - - -` and `F - - -`. -/
theorem test_isemptyA :
    said 0x28000000000 (request (lanes [] [] [] []) 15) = some (false, true, 1) ∧
    said 0x28000000000 startX = some (false, true, 0) := by decide
/-- V-Y7. -/
theorem test_isemptyA_latched : said 0x28000000000 afterX1 = some (true, false, 0) := by decide
/-- B5, pattern `F - - -`: offsets 0x0 and 0xc. -/
theorem test_isemptyL :
    said 0x29000000000 startX = some (false, true, 0) ∧ said 0x29C00000000 startX = some (false, true, 1) := by decide
/-- V-X4. -/
theorem test_isemptyL_bad_offset : latchAfter 0x29E00000000 startX = some (true, 2, true) := by decide

/-- V-K3. -/
theorem test_getcr : said 0x30000000000 (request (lanes [] [] [] []) 9) = some (false, true, 9) := by decide
/-- V-X15, V-U9: no credit counter comes before not initialised. -/
theorem test_getcr_gated :
    latchAfter 0x32000000000 startX = some (true, 4, true) ∧
    latchAfter 0x30000000000 State.reset = some (true, 1, true) := by decide
/-- V-K8. -/
theorem test_crinc : creditsAfter 0x38000000000 (request (lanes [] [] [] []) 14) = some (.live 15) := by decide
/-- V-K9. -/
theorem test_crinc_at_15 :
    said 0x38000000000 startX = some (false, false, 0) ∧ creditsAfter 0x38000000000 startX = some (.live 15) := by decide
/-- V-K5. -/
theorem test_crdec : creditsAfter 0x40000000000 (request (lanes [] [] [] []) 1) = some (.live 0) := by decide
/-- V-K6. -/
theorem test_crdec_at_0 :
    said 0x40000000000 (request (lanes [] [] [] []) 0) = some (false, false, 0) ∧
    creditsAfter 0x40000000000 (request (lanes [] [] [] []) 0) = some (.live 0) := by decide

/-- V-X18, V-X19: BAD_OP comes before every other condition. -/
theorem test_reserved_op :
    latchAfter 0x7FFFFFFFFFF startX = some (true, 5, true) ∧ latchAfter 0x52200000000 startX = some (true, 5, true) := by
  decide
/-- V-Y5: the first cause stays. -/
theorem test_sticky :
    latchAfter 0x32000000000 afterX1 = some (true, 2, true) ∧ said 0x08000000000 afterX1 = some (true, false, 0) := by
  decide

/-- B1, `C = 3`, rows 5 to 7. -/
theorem test_lane_capacity_3 :
    (laneOfWords 3 [0x2, 0x3]).push 3 0x4 = (⟨[0x2, 0x3, 0x4], true⟩, true) ∧
    (laneOfWords 3 [0x2, 0x3, 0x4]).push 3 0x5 = (⟨[0x2, 0x3, 0x4], true⟩, false) ∧
    (laneOfWords 3 [0x2, 0x3, 0x4]).pop 3 = (⟨[0x3, 0x4], false⟩, some 0x2) := by decide

/-- Rule R24: bit `i` for lane `i`; no value under the latch. -/
theorem test_status_outputs :
    startX.stLaneFull .h2rReq = some 1 ∧ startX.stLaneEmpty .h2rReq = some 0xe ∧ afterX1.stLaneFull .h2rReq = none ∧
    startX.stCredits = some 15 ∧ afterX1.stCause = 2 := by decide

/-! ## The assembler (rules R64, R65; B2) -/

theorem test_assemble_write : assembleLine "write R2H_REQ, 0x4, 1  # one".toList = some [0x12400000001] := by decide
theorem test_assemble_isfullL : assembleLine "ISFULL.L r2h_rsp, 0xc".toList = some [0x25C00000000] := by decide
theorem test_assemble_raw : assembleLine ".cw 0x7FFFFFFFFFF".toList = some [0x7FFFFFFFFFF] := by decide
theorem test_assemble_putpkt :
    assembleLine "PUTPKT 0, 0x1, 0x2, 0x3, 0x4".toList =
      some [0x10000000001, 0x10400000002, 0x10800000003, 0x10C00000004] := by decide
theorem test_assemble_text :
    assembleText "# boot\nINIT h2r_req\nCRDEC 0".toList = some [0x08000000000, 0x40000000000] := by decide
theorem test_assemble_rejects :
    assembleLine "READ h2r_req".toList = none ∧ assembleLine "READ 4, 0x0".toList = none ∧
    assembleLine "READ 0, 16".toList = none := by decide

/-! ## Witnesses: for each statement with hypotheses, concrete operands and states that meet them, per clause -/

/-- The hypotheses of `channelRule` and `laneRule`, each clause in turn: the latch clear; direction 3; a recognised
direction not initialised; one that is live; offsets outside the directory at its edges; the last offset and lane. -/
abbrev operandClauses : Prop :=
  startX.fatal = false ∧ directionOf 3 = none ∧
  directionOf 2 = some .r2hRsp ∧ startX.lanes .r2hRsp = .uninitialised ∧
  directionOf 0 = some .h2rReq ∧ startX.lanes .h2rReq = .live (lanes [0x1] [] [] []) ∧
  (0x1 : Nat) ∉ [0x0, 0x4, 0x8, 0xc] ∧ (0x10 : Nat) ∉ [0x0, 0x4, 0x8, 0xc] ∧
  (0x0 : Nat) = 4 * (0 : Fin 4).val ∧ (0xc : Nat) = 4 * (3 : Fin 4).val

/-- The hypotheses of `creditRule`: the latch clear; directions 3, 1 and 2 are operands; direction 0 not initialised;
direction 0 live with credits at both bounds. -/
abbrev creditClauses : Prop :=
  State.reset.fatal = false ∧ State.reset.initialized .h2rReq = false ∧
  (request (lanes [] [] [] []) 0).fatal = false ∧ (request (lanes [] [] [] []) 0).credits = .live 0 ∧
  startX.fatal = false ∧ startX.credits = .live 15

theorem witness_DecodingAnEncodedOperationGivesItBack :
    (Instr.write 3 15 0xFFFFFFFF).wf = true ∧ (Instr.isfullL 0 0).wf = true := by decide

theorem witness_ReencodingKeepsEveryUsedBit : decode 0x13CDEADBEEF = .instr (.write 1 0xc 0xDEADBEEF) := by decide

theorem witness_UnusedFieldsHaveNoInfluence :
    decode 0x28300000001 = .instr (.isemptyA 0) ∧
    (0x28300000001 : CommandWord) &&& (Instr.isemptyA 0).usedBits = 0x28000000000 &&& (Instr.isemptyA 0).usedBits := by
  decide

theorem witness_OpcodeTableSelectsTheDecodedOperation :
    decode 0x21812345678 = .instr (.isfullL 0 0x8) ∧ (Instr.isfullL 2 0).opcodeRow.selects 0x21812345678 = true := by
  decide

theorem witness_ReservedOpCodesRaiseBadOp :
    (startX.present 0x48000000000).port = [0x48000000000] ∧ (startX.present 0x48000000000).fatal = false ∧
    9 ≤ ((0x48000000000 : CommandWord) >>> 39).toNat ∧ 9 ≤ ((0x7FFFFFFFFFF : CommandWord) >>> 39).toNat := by decide

theorem witness_StepRunsTheDecodedOperation :
    State.reset.port = [] ∧ (startX.present 0x20300000000).port = [0x20300000000] ∧
    decode 0x20300000000 = .instr (.isfullA 0) := by decide

theorem witness_StepFollowsTheDecodingProcedure : (startX.present 0x1E200000000).port = [0x1E200000000] := by decide

theorem witness_EveryCommandIsAnswered : (afterX1.present 0x00000000000).port = [0x00000000000] := by decide

theorem witness_ResponseWordIsFatalOkData :
    (startX.present 0x18000000000).port = [0x18000000000] ∧
    step (startX.present 0x18000000000) = .next (after (.read 0 0x0) startX) ∧
    exec (.read 0 0x0) startX = .next (after (.read 0 0x0) startX) ∧
    (after (.read 0 0x0) startX).rsp = some ⟨false, true, some 0x1⟩ := ⟨rfl, rfl, rfl, rfl⟩

theorem witness_PushAppendsUnlessFull :
    (laneOfWords 1 [0xA]).q.length = 1 ∧ (laneOfWords 1 []).q.length ≠ 1 := by decide

theorem witness_PopTakesTheOldestWord :
    (laneOfWords 1 []).q = [] ∧ (laneOfWords 1 [0xA]).q = 0xA :: [] ∧ (laneOfWords 1 [0xA]).q.length ≤ 1 := by decide

theorem witness_LaneQueriesAgreeWithTheSize :
    (laneOfWords 3 [0xA, 0xB, 0xC]).sound 3 = true ∧ (laneOfWords 1 []).sound 1 = true := by decide

theorem witness_WordsPushedComeBackInOrder :
    (laneOfWords 2 []).q = [] ∧ ([0x1, 0x2] : List Word).length ≤ 2 := by decide

theorem witness_NopFollowsItsRule :
    startX.fatal = false ∧ afterX1.fatal = true ∧ (0x06F12345678 : CommandWord) &&& 0x78000000000 = 0 := by decide

theorem witness_InitFollowsItsRule :
    (0x0BF00000001 : CommandWord) &&& 0x78000000000 = 0x08000000000 ∧ startX.fatal = false ∧
    directionOf 0 = some .h2rReq ∧ directionOf 1 = some .r2hReq ∧ directionOf 2 = some .r2hRsp := by decide

theorem witness_InitTwiceIsInitOnce : exec (.init 0) startX = .next (after (.init 0) startX) := rfl

theorem witness_WriteFollowsItsRule :
    (0x13CDEADBEEF : CommandWord) &&& 0x78000000000 = 0x10000000000 ∧ operandClauses ∧
    ((lanes [0x1] [] [] []).get 0).q.length = startX.capacity ∧
    ((lanes [0x1] [] [] []).get 3).q.length ≠ startX.capacity := by decide

theorem witness_ReadFollowsItsRule :
    (0x1A8FFFFFFFF : CommandWord) &&& 0x78000000000 = 0x18000000000 ∧ operandClauses ∧
    ((lanes [0x1] [] [] []).get 3).q = [] ∧ ((lanes [0x1] [] [] []).get 0).q = 0x1 :: [] := by decide

theorem witness_WriteAndReadTouchOneLane :
    exec (.write 0 0xc 0x9) startX = .next (after (.write 0 0xc 0x9) startX) ∧
    exec (.read 0 0x0) startX = .next (after (.read 0 0x0) startX) ∧
    startX.lanes .h2rReq = .live (lanes [0x1] [] [] []) ∧ startX.lanes .r2hReq = .uninitialised ∧
    laneNamed (.read 0 0x0) ≠ some (.h2rReq, 1) := ⟨rfl, rfl, rfl, rfl, by decide⟩

theorem witness_ReadAfterWriteReturnsTheWord :
    startX.fatal = false ∧ 0 < startX.capacity ∧ directionOf 0 = some .h2rReq ∧ laneOf 0xc = some 3 ∧
    startX.lanes .h2rReq = .live (lanes [0x1] [] [] []) ∧ ((lanes [0x1] [] [] []).get 3).q = [] := by decide

theorem witness_LaneHoldsWhatWasWrittenAndNotRead :
    startX.lanes .h2rReq = .live (lanes [0x1] [] [] []) ∧
    ∀ i ∈ [Instr.read 0 0x0, Instr.init 1, Instr.write 0 0x0 0x5], i.isInit = true → channelNamed i ≠ some .h2rReq := by
  decide

theorem witness_IsfullAFollowsItsRule :
    (0x24F00000000 : CommandWord) &&& 0x79000000000 = 0x20000000000 ∧ operandClauses := by decide

theorem witness_IsfullLFollowsItsRule :
    (0x25C00000000 : CommandWord) &&& 0x79000000000 = 0x21000000000 ∧ operandClauses := by decide

theorem witness_IsemptyAFollowsItsRule :
    (0x2A000000000 : CommandWord) &&& 0x79000000000 = 0x28000000000 ∧ operandClauses := by decide

theorem witness_IsemptyLFollowsItsRule :
    (0x2B800000000 : CommandWord) &&& 0x79000000000 = 0x29000000000 ∧ operandClauses := by decide

theorem witness_FlagQueriesArePure :
    exec (.isfullL 0 0x0) startX = .next (after (.isfullL 0 0x0) startX) ∧
    (after (.isfullL 0 0x0) startX).fatal = false := ⟨rfl, rfl⟩

theorem witness_AggregateQueryIsTheAndOfLaneQueries :
    startX.fatal = false ∧ directionOf 0 = some .h2rReq ∧ startX.initialized .h2rReq = true := by decide

theorem witness_IsfullLForetellsARefusedWrite :
    startX.Inv ∧ startX.fatal = false ∧ directionOf 0 = some .h2rReq ∧ laneOf 0x0 = some 0 ∧
    startX.initialized .h2rReq = true := by decide

theorem witness_IsemptyLForetellsAFailedRead :
    startX.fatal = false ∧ directionOf 0 = some .h2rReq ∧ laneOf 0xc = some 3 ∧ startX.initialized .h2rReq = true := by
  decide

theorem witness_GetcrFollowsItsRule :
    (0x31F55555555 : CommandWord) &&& 0x78000000000 = 0x30000000000 ∧ creditClauses := by decide

theorem witness_CrincFollowsItsRule :
    (0x39A00000000 : CommandWord) &&& 0x78000000000 = 0x38000000000 ∧ creditClauses ∧
    (14 : BitVec 4).toNat < 15 ∧ (15 : BitVec 4).toNat = 15 := by decide

theorem witness_CrdecFollowsItsRule :
    (0x41A00000007 : CommandWord) &&& 0x78000000000 = 0x40000000000 ∧ creditClauses ∧
    0 < (1 : BitVec 4).toNat ∧ (0 : BitVec 4).toNat = 0 := by decide

theorem witness_CreditOperationsAreGatedByDirection : State.reset.fatal = false ∧ allLive.fatal = false := by decide

theorem witness_CreditsCountTheSuccessfulSteps :
    startX.fatal = false ∧
    ∀ i ∈ [Instr.crdec 0, Instr.init 2, Instr.crinc 0], i.isInit = true → channelNamed i ≠ some .h2rReq := by decide

theorem witness_OnlyThreeOperationsChangeTheCredits :
    exec (.crdec 0) startX = .next (after (.crdec 0) startX) ∧ (after (.crdec 0) startX).credits ≠ startX.credits :=
  ⟨rfl, by decide⟩

theorem witness_OtherOperationsDoNotReadTheCredits :
    (Instr.write 0 0x4 0x9).isCredit = false ∧ startX.credits = .live 15 ∧
    exec (.write 0 0x4 0x9) startX = .next (after (.write 0 0x4 0x9) startX) := ⟨rfl, rfl, rfl⟩

/-- Every cause of `expectedCause`, and none (V-X8, V-X15, V-X13, V-X20, V-X5). -/
theorem witness_FatalCauseFollowsThePriority :
    startX.fatal = false ∧ expectedCause (.write 3 0x0 0x9) startX = some .badDir ∧
    expectedCause (.getcr 1) startX = some .noCredit ∧ expectedCause (.write 1 0x2 0x9) startX = some .uninit ∧
    expectedCause (.write 0 0x6 0x9) startX = some .badOffset ∧ expectedCause (.isfullA 0) startX = none := by decide

theorem witness_UninitIsRaisedExactly : State.reset.fatal = false ∧ startX.fatal = false := by decide

theorem witness_BadOffsetIsRaisedExactly : startX.fatal = false := by decide

theorem witness_BadDirIsRaisedExactly : startX.fatal = false := by decide

theorem witness_ObeyingTheContractNeverSetsTheLatch :
    startX.fatal = false ∧ (Instr.write 0 0xc 0x9).obeysContract = true ∧
    channelNamed (.write 0 0xc 0x9) = some .h2rReq ∧ startX.initialized .h2rReq = true := by decide

theorem witness_FatalEntryIsPreciseAndSticky :
    (startX.present 0x10600000009).port = [0x10600000009] ∧ startX.fatal = false ∧
    step (startX.present 0x10600000009) = .next (after (.write 0 0x6 0x9) startX) ∧
    (after (.write 0 0x6 0x9) startX).fatal = true ∧
    (afterX1.present 0x08000000000).port = [0x08000000000] ∧ (afterX1.present 0x08000000000).fatal = true :=
  ⟨rfl, rfl, rfl, rfl, rfl, rfl⟩

theorem witness_RecoverableFailuresAreFourAndChangeNothing :
    startX.Inv ∧ startX.fatal = false ∧ exec (.crinc 0) startX = .next (answered startX false none) ∧
    (request (lanes [] [] [] []) 0).Inv ∧
    exec (.crdec 0) (request (lanes [] [] [] []) 0) =
      .next (answered (request (lanes [] [] [] []) 0) false none) := ⟨by decide, rfl, rfl, by decide, rfl⟩

theorem witness_ChannelModesChangeByInitOnly : exec (.init 2) startX = .next (after (.init 2) startX) := rfl

theorem witness_OtherChannelsAreUntouched :
    exec (.init 1) startX = .next (after (.init 1) startX) ∧ channelNamed (.init 1) ≠ some .h2rReq := ⟨rfl, by decide⟩

/-- B9 for different channels; two lanes of one channel. -/
theorem witness_IndependentCommandsCommute :
    allLive.fatal = false ∧ expectedCause (.write 0 0x0 0x1) allLive = none ∧
    expectedCause (.read 2 0xc) allLive = none ∧ expectedCause (.write 0 0x4 0x2) allLive = none ∧
    channelNamed (.write 0 0x0 0x1) = some .h2rReq ∧ channelNamed (.read 2 0xc) = some .r2hRsp ∧
    Direction.h2rReq ≠ .r2hRsp ∧
    laneNamed (.write 0 0x0 0x1) = some (.h2rReq, 0) ∧ laneNamed (.write 0 0x4 0x2) = some (.h2rReq, 1) ∧
    (0 : Fin 4) ≠ 1 := by decide

theorem witness_InitallMakesEveryChannelLive : startX.fatal = false := by decide

theorem witness_PacketPutIsThePacketGot :
    allLive.fatal = false ∧ allLive.capacity = 1 ∧ directionOf 1 = some .r2hReq ∧
    allLive.lanes .r2hReq = .live (lanes [] [] [] []) ∧ ∀ j : Fin 4, ((lanes [] [] [] []).get j).q = [] := by decide

theorem witness_EveryStepKeepsTheInvariant :
    (startX.present 0x10400000005).Inv ∧
    step (startX.present 0x10400000005) = .next (after (.write 0 0x4 0x5) startX) := ⟨by decide, rfl⟩

theorem witness_PartialPacketsAreNeitherFullNorEmpty :
    startX.Inv ∧ startX.lanes .h2rReq = .live (lanes [0x1] [] [] []) ∧
    ((lanes [0x1] [] [] []).get 0).q ≠ [] ∧ ((lanes [0x1] [] [] []).get 3).q = [] := by decide

theorem witness_StatusOutputsShowTheState :
    afterX1.fatal = true ∧ startX.initialized .r2hReq = false ∧ startX.fatal = false ∧
    startX.lanes .h2rReq = .live (lanes [0x1] [] [] []) ∧ startX.credits = .live 15 ∧
    State.reset.initialized .h2rReq = false := by decide

theorem witness_SourceCallsReturnFlagsAndCount :
    startX.fatal = false ∧ startX.lanes .h2rReq = .live (lanes [0x1] [] [] []) ∧ laneOf 0xc = some 3 ∧
    startX.credits = .live 15 := by decide

/-- A full lane and one with room, a lane with a word and an empty one, credits at both bounds; a channel not live. -/
theorem witness_SourceCallsThatActReturnTheirSuccess :
    startX.fatal = false ∧ startX.lanes .h2rReq = .live (lanes [0x1] [] [] []) ∧ laneOf 0x0 = some 0 ∧
    laneOf 0xc = some 3 ∧ startX.credits = .live 15 ∧ startX.lanes .r2hReq = .uninitialised ∧
    (request (lanes [0x1] [] [] []) 0).fatal = false ∧
    (request (lanes [0x1] [] [] []) 0).lanes .h2rReq = .live (lanes [0x1] [] [] []) ∧
    (request (lanes [0x1] [] [] []) 0).credits = .live 0 := by decide

end Sys2Proof.Tests
end

section
/-! What one command can do to the state, said once for all operations, and what follows from it for every command word
(rules R8, R9, R61). -/

namespace Sys2Proof.Machine

/-- What a command can do to `s`: rule R118's two answers, a response that leaves the rest of the state alone, or one of
the effects of rules R81 to R83, R102 and R103, which only a command that answers `ok = 1` has. -/
inductive CommandEffect (s : State) : State → Prop where
  | latched (hf : s.fatal = true) : CommandEffect s s.answerLatched
  | fatalEntry (c : Cause) (hf : s.fatal = false) (hc : c ≠ .none) : CommandEffect s (s.takeFatal c)
  | answer (ok : Bool) (v : Option Word) (hf : s.fatal = false) : CommandEffect s (s.respond ok v)
  | init (d : Direction) (hf : s.fatal = false) : CommandEffect s ((s.initChannel d).respond true none)
  | push (d : Direction) (ls : Lanes) (j : Fin 4) (w : Word) (hf : s.fatal = false) (hl : s.lanes d = .live ls)
      (hroom : (ls.get j).q.length ≠ s.capacity) :
      CommandEffect s ((s.withLanes d (ls.set j ((ls.get j).push s.capacity w).1)).respond true none)
  | pop (d : Direction) (ls : Lanes) (j : Fin 4) (w : Word) (ws : List Word) (hf : s.fatal = false)
      (hl : s.lanes d = .live ls) (hq : (ls.get j).q = w :: ws) :
      CommandEffect s ((s.withLanes d (ls.set j ((ls.get j).pop s.capacity).1)).respond true (some w))
  | creditUp (n : BitVec 4) (hf : s.fatal = false) (hn : s.credits = .live n) (hlt : n.toNat < Config.maxCredits) :
      CommandEffect s ((s.withCredits (BitVec.ofNat 4 (n.toNat + 1))).respond true none)
  | creditDown (n : BitVec 4) (hf : s.fatal = false) (hn : s.credits = .live n) (hpos : 0 < n.toNat) :
      CommandEffect s ((s.withCredits (BitVec.ofNat 4 (n.toNat - 1))).respond true none)

/-- The answer is a next state, reached by an effect a command can have. -/
def HasEffect (s : State) (a : Answer) : Prop :=
  ∃ t, a = .next t ∧ CommandEffect s t

variable {s t : State} {cw : CommandWord}

/-! What every effect keeps, and its response. -/

theorem CommandEffect.port_eq (h : CommandEffect s t) : t.port = s.port := by
  cases h <;> simp

theorem CommandEffect.capacity_eq (h : CommandEffect s t) : t.capacity = s.capacity := by
  cases h <;> simp

/-- Every effect comes with a response, and with `ok = 0` no channel changes (rule R9). -/
theorem CommandEffect.exists_rsp (h : CommandEffect s t) :
    ∃ r, t.rsp = some r ∧ (r.ok = false → t.h2rReq = s.h2rReq ∧ t.r2hReq = s.r2hReq ∧ t.r2hRsp = s.r2hRsp) := by
  cases h with
  | latched | fatalEntry | answer => exact ⟨_, rfl, fun _ => ⟨rfl, rfl, rfl⟩⟩
  | init | push | pop | creditUp | creditDown => exact ⟨_, rfl, fun hok => nomatch hok⟩

/-! The chains of checks (rule R62): what a chain lets through decides, for each error it raises has an effect. -/

theorem CommandEffect.hasEffect (h : CommandEffect s t) : HasEffect s (.next t) := ⟨t, rfl, h⟩

theorem unlessLatched_hasEffect {run : Answer} (hrun : s.fatal = false → HasEffect s run) :
    HasEffect s (unlessLatched s run) := by
  cases hf : s.fatal with
  | true => rw [unlessLatched_set hf]; exact (CommandEffect.latched hf).hasEffect
  | false => rw [unlessLatched_clear hf]; exact hrun hf

theorem onChannel_hasEffect (dir : BitVec 2) {run : Direction → Lanes → Answer}
    (hrun : ∀ d ls, s.fatal = false → s.lanes d = .live ls → HasEffect s (run d ls)) :
    HasEffect s (onChannel dir s run) := by
  obtain ⟨hf, h⟩ | ⟨hf, -, h⟩ | ⟨d, hf, -, -, h⟩ | ⟨d, ls, hf, -, hl, h⟩ := onChannel_cases dir s run <;> rw [h]
  · exact (CommandEffect.latched hf).hasEffect
  · exact (CommandEffect.fatalEntry .badDir hf nofun).hasEffect
  · exact (CommandEffect.fatalEntry .uninit hf nofun).hasEffect
  · exact hrun d ls hf hl

theorem onLane_hasEffect (dir : BitVec 2) (off : Nat) {run : Direction → Lanes → Fin 4 → Answer}
    (hrun : ∀ d ls j, s.fatal = false → s.lanes d = .live ls → HasEffect s (run d ls j)) :
    HasEffect s (onLane dir off s run) := by
  refine onChannel_hasEffect dir fun d ls hf hl => ?_
  unfold withLane
  split
  · exact (CommandEffect.fatalEntry .badOffset hf nofun).hasEffect
  · exact hrun d ls _ hf hl

theorem onCredits_hasEffect (dir : BitVec 2) {run : BitVec 4 → Answer}
    (hrun : ∀ n, s.fatal = false → s.credits = .live n → HasEffect s (run n)) :
    HasEffect s (onCredits dir s run) := by
  obtain ⟨hf, h⟩ | ⟨hf, -, h⟩ | ⟨d, hf, -, -, h⟩ | ⟨hf, -, -, h⟩ | ⟨n, hf, -, hn, h⟩ := onCredits_cases dir s run <;>
    rw [h]
  · exact (CommandEffect.latched hf).hasEffect
  · exact (CommandEffect.fatalEntry .badDir hf nofun).hasEffect
  · exact (CommandEffect.fatalEntry .noCredit hf nofun).hasEffect
  · exact (CommandEffect.fatalEntry .uninit hf nofun).hasEffect
  · exact hrun n hf hn

/-! The operations with an effect of their own. -/

theorem execInit_hasEffect (dir : BitVec 2) (s : State) : HasEffect s (execInit dir s) := by
  refine unlessLatched_hasEffect fun hf => ?_
  obtain ⟨-, h⟩ | ⟨d, -, h⟩ := withDirection_cases dir s fun d => .next ((s.initChannel d).respond true none) <;> rw [h]
  · exact (CommandEffect.fatalEntry .badDir hf nofun).hasEffect
  · exact (CommandEffect.init d hf).hasEffect

/-- A WRITE to a full lane puts back the lane it found, which is no effect but the response (rule R82). -/
theorem execWrite_hasEffect (dir : BitVec 2) (off : Nat) (w : Word) (s : State) :
    HasEffect s (execWrite dir off w s) := by
  refine onLane_hasEffect dir off fun d ls j hf hl => ?_
  by_cases hfull : (ls.get j).q.length = s.capacity
  · rw [Lane.push_at_capacity hfull, Lanes.set_get, State.withLanes_same s d ls hl]
    exact (CommandEffect.answer false none hf).hasEffect
  · have hok : ((ls.get j).push s.capacity w).2 = true := by rw [Lane.push_below_capacity hfull]
    rw [hok]
    exact (CommandEffect.push d ls j w hf hl hfull).hasEffect

/-- A READ of an empty lane puts back the lane it found, which is no effect but the response (rule R83). -/
theorem execRead_hasEffect (dir : BitVec 2) (off : Nat) (s : State) : HasEffect s (execRead dir off s) := by
  refine onLane_hasEffect dir off fun d ls j hf hl => ?_
  cases hq : (ls.get j).q with
  | nil =>
    rw [Lane.pop_empty hq, Lanes.set_get, State.withLanes_same s d ls hl]
    exact (CommandEffect.answer false none hf).hasEffect
  | cons w ws =>
    have hv : ((ls.get j).pop s.capacity).2 = some w := by rw [Lane.pop_cons hq]
    rw [hv]
    exact (CommandEffect.pop d ls j w ws hf hl hq).hasEffect

theorem execCrinc_hasEffect (dir : BitVec 2) (s : State) : HasEffect s (execCrinc dir s) := by
  refine onCredits_hasEffect dir fun n hf hn => ?_
  split
  next hlt => exact (CommandEffect.creditUp n hf hn hlt).hasEffect
  next => exact (CommandEffect.answer false none hf).hasEffect

theorem execCrdec_hasEffect (dir : BitVec 2) (s : State) : HasEffect s (execCrdec dir s) := by
  refine onCredits_hasEffect dir fun n hf hn => ?_
  split
  next hpos => exact (CommandEffect.creditDown n hf hn hpos).hasEffect
  next => exact (CommandEffect.answer false none hf).hasEffect

/-! Every operation, every command word. -/

/-- No operation has an effect that `CommandEffect` does not list, and none stops the machine (rule R9). -/
theorem exec_hasEffect (i : Instr) (s : State) : HasEffect s (exec i s) := by
  cases i with
  | nop => exact unlessLatched_hasEffect fun hf => (CommandEffect.answer true none hf).hasEffect
  | init dir => exact execInit_hasEffect dir s
  | write dir off w => exact execWrite_hasEffect dir off w s
  | read dir off => exact execRead_hasEffect dir off s
  | isfullA dir | isemptyA dir =>
    exact onChannel_hasEffect dir fun _ _ hf _ => (CommandEffect.answer true _ hf).hasEffect
  | isfullL dir off | isemptyL dir off =>
    exact onLane_hasEffect dir off fun _ _ _ hf _ => (CommandEffect.answer true _ hf).hasEffect
  | getcr dir => exact onCredits_hasEffect dir fun _ hf _ => (CommandEffect.answer true _ hf).hasEffect
  | crinc dir => exact execCrinc_hasEffect dir s
  | crdec dir => exact execCrdec_hasEffect dir s

theorem reservedCommand_hasEffect (s : State) : HasEffect s (reservedCommand s) :=
  unlessLatched_hasEffect fun hf => (CommandEffect.fatalEntry .badOp hf nofun).hasEffect

theorem command_hasEffect (cw : CommandWord) (s : State) : HasEffect s (command cw s) := by
  unfold command
  split
  · exact exec_hasEffect _ s
  · exact reservedCommand_hasEffect s

/-- A step with a word at the port processes that word in the state that has taken it (rules R8, R22). -/
theorem step_of_port {rest : List CommandWord} (h : s.port = cw :: rest) :
    step s = command cw { s with port := rest } := by
  simp [step, State.fetch, h]

end Sys2Proof.Machine

namespace Sys2Proof.Claims

open Sys2Proof.Machine

/-- Settles O10: a step runs `command`, whose effect is one of `CommandEffect`, and those that change a channel answer
`ok = 1`. -/
theorem everyCommandIsAnswered : Obligations.EveryCommandIsAnswered := by
  intro s cw rest hport
  obtain ⟨t, ht, heff⟩ := command_hasEffect cw { s with port := rest }
  obtain ⟨r, hr, hkeep⟩ := heff.exists_rsp
  exact ⟨t, r, (step_of_port hport).trans ht, hr, heff.port_eq, heff.capacity_eq, hkeep⟩

end Sys2Proof.Claims
end

section
/-! The channels of the state: what soundness of the lanes means and what keeps it (rules R12, R13, R27), the aggregate
flags and the status outputs lane by lane (rules R15, R16, R24), and what an operation can do to the channel it names
(rules R17, R21). -/

namespace Sys2Proof.Machine

/-! ## Lanes and flags, lane by lane -/

theorem Lanes.forall_get_iff (ls : Lanes) (P : Lane → Prop) :
    (∀ j, P (ls.get j)) ↔ P ls.lane0 ∧ P ls.lane1 ∧ P ls.lane2 ∧ P ls.lane3 := by
  constructor
  · exact fun h => ⟨h 0, h 1, h 2, h 3⟩
  · rintro ⟨h0, h1, h2, h3⟩ j
    match j with
    | 0 => exact h0
    | 1 => exact h1
    | 2 => exact h2
    | 3 => exact h3

/-- `agg_full` (rule R15). -/
theorem Lanes.aggFull_eq (ls : Lanes) : ls.aggFull = decide (∀ j, (ls.get j).full = true) := by
  rw [Bool.eq_iff_iff, decide_eq_true_iff, Lanes.forall_get_iff ls fun L => L.full = true]
  simp [Lanes.aggFull, Lane.isFull, and_assoc]

/-- `agg_empty` (rule R15). -/
theorem Lanes.aggEmpty_eq (ls : Lanes) : ls.aggEmpty = decide (∀ j, (ls.get j).q.length = 0) := by
  rw [Bool.eq_iff_iff, decide_eq_true_iff, Lanes.forall_get_iff ls fun L => L.q.length = 0]
  simp [Lanes.aggEmpty, Lane.isEmpty, and_assoc]

/-- Bit `j` of a flag vector is the flag of lane `j` (rule R24). -/
theorem laneBits_getLsbD (f : Lane → Bool) (ls : Lanes) (j : Fin 4) :
    (laneBits f ls).getLsbD j.val = f (ls.get j) := by
  match j with
  | 0 | 1 | 2 | 3 => simp only [laneBits, BitVec.getLsbD_append]; simp [Lanes.get]

/-- A sound lane that is full holds a word, for the capacity is positive (rules R5, R13). -/
theorem Lane.q_ne_nil_of_full {C : Nat} {L : Lane} (hC : 0 < C) (hs : L.sound C = true) (hfull : L.full = true) :
    L.q ≠ [] := by
  intro hq
  simp only [Lane.sound, hfull, hq, List.length_nil, Bool.and_eq_true, beq_iff_eq, decide_eq_true_eq,
    eq_comm (a := true)] at hs
  omega

/-! ## Status outputs -/

variable {s t : State} {d e : Direction} {ls : Lanes}

theorem State.shownLanes_eq_none (h : s.fatal = true ∨ s.initialized d = false) : s.shownLanes d = none := by
  obtain hf | hi := h
  · simp [State.shownLanes, hf]
  · simp [State.shownLanes, (State.not_initialized_iff s d).1 hi]

theorem State.shownLanes_of_live (hf : s.fatal = false) (hl : s.lanes d = .live ls) : s.shownLanes d = some ls := by
  simp [State.shownLanes, hf, hl]

theorem State.stCredits_eq_none (h : s.fatal = true ∨ s.initialized .h2rReq = false) : s.stCredits = none := by
  cases hn : s.credits with
  | uninitialised => simp [State.stCredits, hn]
  | live n =>
    have hi : s.initialized .h2rReq = true := (State.credits_live_iff s).1 ⟨n, hn⟩
    have hf : s.fatal = true := by simpa [hi] using h
    simp [State.stCredits, hf]

theorem State.stCredits_of_live {n : BitVec 4} (hf : s.fatal = false) (hn : s.credits = .live n) :
    s.stCredits = some n := by
  simp [State.stCredits, hf, hn]

/-! ## Soundness of the lanes (rules R12, R27) -/

/-- Every lane of every live channel is within the capacity and has the right full flag. -/
def State.LanesSound (s : State) : Prop :=
  ∀ d ls, s.lanes d = .live ls → ls.sound s.capacity = true

theorem Lifecycle.lanesSound_iff (C : Nat) (c : Lifecycle Lanes) :
    c.lanesSound C = true ↔ ∀ ls, c = .live ls → ls.sound C = true := by
  cases c <;> simp [Lifecycle.lanesSound]

/-- The invariant, with its three clauses about channels as one. -/
theorem State.inv_iff (s : State) :
    s.Inv ↔ 0 < s.capacity ∧ s.LanesSound ∧ (s.cause = .none ↔ s.fatal = false) := by
  simp only [State.Inv, Lifecycle.lanesSound_iff, State.LanesSound]
  constructor
  · rintro ⟨hC, h0, h1, h2, hcause⟩
    refine ⟨hC, fun d => ?_, hcause⟩
    cases d with
    | h2rReq => exact h0
    | r2hReq => exact h1
    | r2hRsp => exact h2
  · rintro ⟨hC, h, hcause⟩
    exact ⟨hC, h .h2rReq, h .r2hReq, h .r2hRsp, hcause⟩

theorem State.LanesSound.of_lanes_eq (h : s.LanesSound) (hlanes : ∀ d, t.lanes d = s.lanes d)
    (hC : t.capacity = s.capacity) : t.LanesSound := by
  intro d ls hl
  rw [hC]
  exact h d ls (hlanes d ▸ hl)

/-- A change in one channel keeps the state's lanes sound if what it leaves there is sound. -/
theorem State.LanesSound.of_lanes_eq_of_ne (h : s.LanesSound) (hC : t.capacity = s.capacity)
    (hself : t.lanes d = .live ls) (hls : ls.sound s.capacity = true) (hother : ∀ e, e ≠ d → t.lanes e = s.lanes e) :
    t.LanesSound := by
  intro e ls' hl
  rw [hC]
  by_cases he : e = d
  · subst he
    obtain rfl : ls = ls' := by simpa [hself] using hl
    exact hls
  · exact h e ls' (hother e he ▸ hl)

/-- One lane of a live channel may be replaced by a lane that is sound if the old one was. -/
theorem State.LanesSound.withLanes_set (h : s.LanesSound) (hl : s.lanes d = .live ls) (j : Fin 4) {L : Lane}
    (hL : (ls.get j).sound s.capacity = true → L.sound s.capacity = true) :
    (s.withLanes d (ls.set j L)).LanesSound := by
  have hls : ls.sound s.capacity = true := h d ls hl
  exact h.of_lanes_eq_of_ne (State.withLanes_capacity s d _) (State.withLanes_lanes_self s d _ hl)
    (Lanes.set_sound hls (hL ((Lanes.sound_iff _ ls).1 hls j)) j) fun e he => State.withLanes_lanes_other s d e _ he

theorem State.LanesSound.initChannel (h : s.LanesSound) (hC : 0 < s.capacity) (d : Direction) :
    (s.initChannel d).LanesSound := by
  have hcleared : Lanes.cleared.sound s.capacity = true :=
    (Lanes.sound_iff _ _).2 fun j => (Lanes.cleared_get j).symm ▸ Lane.cleared_sound hC
  exact h.of_lanes_eq_of_ne (State.initChannel_capacity s d) (State.initChannel_lanes_self s d) hcleared
    fun e he => State.initChannel_lanes_other s d e he

theorem State.LanesSound.respond (h : s.LanesSound) (ok : Bool) (v : Option Word) : (s.respond ok v).LanesSound :=
  h.of_lanes_eq (fun d => State.respond_lanes s d ok v) rfl

/-! ## The invariant through one command -/

theorem CommandEffect.lanesSound (h : CommandEffect s t) (hC : 0 < s.capacity) (hs : s.LanesSound) :
    t.LanesSound := by
  cases h with
  | latched => exact hs.of_lanes_eq (by simp) rfl
  | fatalEntry => exact hs.of_lanes_eq (by simp) rfl
  | answer ok v => exact hs.respond ok v
  | init d => exact (hs.initChannel hC d).respond true none
  | push d ls j w hf hl => exact (hs.withLanes_set hl j fun hL => Lane.push_sound hL w).respond true none
  | pop d ls j w ws hf hl => exact (hs.withLanes_set hl j Lane.pop_sound).respond true (some w)
  | creditUp | creditDown => exact hs.of_lanes_eq (by simp) (by simp)

/-- The cause is written with the latch and only then (rules R19, R118). -/
theorem CommandEffect.cause_none_iff (h : CommandEffect s t) (hs : s.cause = .none ↔ s.fatal = false) :
    t.cause = .none ↔ t.fatal = false := by
  cases h with
  | fatalEntry c _ hc => simpa using hc
  | latched | answer | init | push | pop | creditUp | creditDown => simpa using hs

theorem CommandEffect.inv (h : CommandEffect s t) (hs : s.Inv) : t.Inv := by
  rw [State.inv_iff] at *
  obtain ⟨hC, hlanes, hcause⟩ := hs
  exact ⟨h.capacity_eq ▸ hC, h.lanesSound hC hlanes, h.cause_none_iff hcause⟩

/-! ## The step and the decoder -/

/-- Without a word at the port nothing happens (rule R80). -/
theorem step_of_port_nil (h : s.port = []) : step s = .next s := by
  simp [step, State.fetch, h]

/-- A step changes nothing, or has an effect a command can have once it has taken its word. -/
theorem step_cases (s : State) :
    step s = .next s ∨ ∃ rest, HasEffect { s with port := rest } (step s) := by
  cases hp : s.port with
  | nil => exact .inl (step_of_port_nil hp)
  | cons cw rest => exact .inr ⟨rest, step_of_port hp ▸ command_hasEffect cw _⟩

theorem command_of_decode {cw : CommandWord} {i : Instr} (h : decode cw = .instr i) (s : State) :
    command cw s = exec i s := by
  simp [command, h]

/-- The port carries offsets of 4 bits, so what a command word decodes as is well-formed (rules R50, R55). -/
theorem decode_wf {cw : CommandWord} {i : Instr} (h : decode cw = .instr i) : i.wf = true := by
  unfold decode decodeFields at h
  repeat' split at h
  all_goals cases h
  all_goals simp [Instr.wf, Instr.off?, (offField cw).isLt]

/-! ## What an operation can do to the channel it names -/

/-- What the operation `i` can do to the channels: nothing; its effect on the channel it names if it is an INIT that is
let through; or, if it is no INIT, other lanes in the live channel it names, or other credits if that is `H2R_REQ`. -/
inductive ChannelEffect (i : Instr) (s : State) : State → Prop where
  | kept {t : State} (hlanes : ∀ e, t.lanes e = s.lanes e) (hcredits : t.credits = s.credits)
      (hinit : s.fatal = true ∨ i.isInit = false ∨ channelNamed i = none) : ChannelEffect i s t
  | init {d : Direction} (hf : s.fatal = false) (hi : i.isInit = true) (hd : channelNamed i = some d) :
      ChannelEffect i s ((s.initChannel d).respond true none)
  | lanes {d : Direction} {ls : Lanes} (hi : i.isInit = false) (hd : channelNamed i = some d)
      (hl : s.lanes d = .live ls) (ls' : Lanes) (ok : Bool) (v : Option Word) :
      ChannelEffect i s ((s.withLanes d ls').respond ok v)
  | credits (hi : i.isInit = false) (hd : channelNamed i = some .h2rReq) (n : BitVec 4) :
      ChannelEffect i s ((s.withCredits n).respond true none)

/-- The answer is a next state, and `i` can have done to the channels what it shows. -/
def HasChannelEffect (i : Instr) (s : State) (a : Answer) : Prop :=
  ∃ t, a = .next t ∧ ChannelEffect i s t

section
variable {i : Instr} {dir : BitVec 2}

theorem ChannelEffect.hasChannelEffect (h : ChannelEffect i s t) : HasChannelEffect i s (.next t) := ⟨t, rfl, h⟩

theorem hasChannelEffect_answerLatched (hf : s.fatal = true) : HasChannelEffect i s (.next s.answerLatched) :=
  (ChannelEffect.kept (by simp) (by simp) (.inl hf)).hasChannelEffect

theorem hasChannelEffect_takeFatal (hinit : i.isInit = false ∨ channelNamed i = none) (c : Cause) :
    HasChannelEffect i s (.next (s.takeFatal c)) :=
  (ChannelEffect.kept (by simp) (by simp) (.inr hinit)).hasChannelEffect

theorem hasChannelEffect_respond (hi : i.isInit = false) (ok : Bool) (v : Option Word) :
    HasChannelEffect i s (.next (s.respond ok v)) :=
  (ChannelEffect.kept (by simp) (by simp) (.inr (.inl hi))).hasChannelEffect

theorem channelNamed_eq (h : i.dir? = some dir) : channelNamed i = directionOf dir := by
  simp [channelNamed, h]

theorem unlessLatched_hasChannelEffect {run : Answer} (hrun : s.fatal = false → HasChannelEffect i s run) :
    HasChannelEffect i s (unlessLatched s run) := by
  cases hf : s.fatal with
  | true => rw [unlessLatched_set hf]; exact hasChannelEffect_answerLatched hf
  | false => rw [unlessLatched_clear hf]; exact hrun hf

theorem onChannel_hasChannelEffect (hi : i.isInit = false) (hdir : i.dir? = some dir)
    {run : Direction → Lanes → Answer}
    (hrun : ∀ d ls, channelNamed i = some d → s.lanes d = .live ls → HasChannelEffect i s (run d ls)) :
    HasChannelEffect i s (onChannel dir s run) := by
  obtain ⟨hf, h⟩ | ⟨-, -, h⟩ | ⟨d, -, -, -, h⟩ | ⟨d, ls, -, hd, hl, h⟩ := onChannel_cases dir s run <;> rw [h]
  · exact hasChannelEffect_answerLatched hf
  · exact hasChannelEffect_takeFatal (.inl hi) _
  · exact hasChannelEffect_takeFatal (.inl hi) _
  · exact hrun d ls (channelNamed_eq hdir ▸ hd) hl

theorem onLane_hasChannelEffect (hi : i.isInit = false) (hdir : i.dir? = some dir) (off : Nat)
    {run : Direction → Lanes → Fin 4 → Answer}
    (hrun : ∀ d ls j, channelNamed i = some d → s.lanes d = .live ls → HasChannelEffect i s (run d ls j)) :
    HasChannelEffect i s (onLane dir off s run) := by
  refine onChannel_hasChannelEffect hi hdir fun d ls hd hl => ?_
  unfold withLane
  split
  · exact hasChannelEffect_takeFatal (.inl hi) _
  · exact hrun d ls _ hd hl

theorem onCredits_hasChannelEffect (hi : i.isInit = false) (hdir : i.dir? = some dir) {run : BitVec 4 → Answer}
    (hrun : ∀ n, channelNamed i = some .h2rReq → HasChannelEffect i s (run n)) :
    HasChannelEffect i s (onCredits dir s run) := by
  obtain ⟨hf, h⟩ | ⟨-, -, h⟩ | ⟨d, -, -, -, h⟩ | ⟨-, -, -, h⟩ | ⟨n, -, hd, -, h⟩ := onCredits_cases dir s run <;> rw [h]
  · exact hasChannelEffect_answerLatched hf
  · exact hasChannelEffect_takeFatal (.inl hi) _
  · exact hasChannelEffect_takeFatal (.inl hi) _
  · exact hasChannelEffect_takeFatal (.inl hi) _
  · exact hrun n (channelNamed_eq hdir ▸ hd)

end

theorem execInit_hasChannelEffect (dir : BitVec 2) (s : State) :
    HasChannelEffect (.init dir) s (execInit dir s) := by
  refine unlessLatched_hasChannelEffect fun hf => ?_
  obtain ⟨hd, h⟩ | ⟨d, hd, h⟩ := withDirection_cases dir s fun d => .next ((s.initChannel d).respond true none) <;>
    rw [h]
  · exact hasChannelEffect_takeFatal (.inr ((channelNamed_eq rfl).trans hd)) _
  · exact (ChannelEffect.init hf rfl ((channelNamed_eq rfl).trans hd)).hasChannelEffect

/-- No operation does to the channels what `ChannelEffect` does not list (rules R17, R21). -/
theorem exec_hasChannelEffect (i : Instr) (s : State) : HasChannelEffect i s (exec i s) := by
  cases i with
  | nop => exact unlessLatched_hasChannelEffect fun _ => hasChannelEffect_respond rfl true none
  | init dir => exact execInit_hasChannelEffect dir s
  | write | read =>
    exact onLane_hasChannelEffect rfl rfl _ fun _ _ _ hd hl => (ChannelEffect.lanes rfl hd hl _ _ _).hasChannelEffect
  | isfullA | isemptyA =>
    exact onChannel_hasChannelEffect rfl rfl fun _ _ _ _ => hasChannelEffect_respond rfl true _
  | isfullL | isemptyL =>
    exact onLane_hasChannelEffect rfl rfl _ fun _ _ _ _ _ => hasChannelEffect_respond rfl true _
  | getcr => exact onCredits_hasChannelEffect rfl rfl fun _ _ => hasChannelEffect_respond rfl true _
  | crinc | crdec =>
    refine onCredits_hasChannelEffect rfl rfl fun n hd => ?_
    split
    · exact (ChannelEffect.credits rfl hd _).hasChannelEffect
    · exact hasChannelEffect_respond rfl false none

theorem exec_channelEffect {i : Instr} (h : exec i s = .next t) : ChannelEffect i s t := by
  obtain ⟨t', ht', heff⟩ := exec_hasChannelEffect i s
  obtain rfl : t' = t := Host.Outcome.next.inj (ht'.symm.trans h)
  exact heff

theorem State.initialized_congr (h : t.lanes d = s.lanes d) : t.initialized d = s.initialized d := by
  simp only [State.initialized, h]

/-- The channels an operation does not name (rule R21). -/
theorem ChannelEffect.other {i : Instr} (h : ChannelEffect i s t) (he : channelNamed i ≠ some e) :
    t.lanes e = s.lanes e ∧ (e = .h2rReq → t.credits = s.credits) := by
  cases h with
  | kept hlanes hcredits => exact ⟨hlanes e, fun _ => hcredits⟩
  | @init d _ _ hd =>
    have hne : e ≠ d := fun h => he (h ▸ hd)
    refine ⟨by simpa using State.initChannel_lanes_other s d e hne, ?_⟩
    rintro rfl
    simpa using State.initChannel_credits_other s d hne.symm
  | @lanes d ls _ hd =>
    have hne : e ≠ d := fun h => he (h ▸ hd)
    exact ⟨by simpa using State.withLanes_lanes_other s d e _ hne, by simp⟩
  | credits _ hd => exact ⟨by simp, fun h => absurd (h ▸ hd) he⟩

/-- The init flag of every channel after an operation (rules R17, R124). -/
theorem ChannelEffect.initialized_eq {i : Instr} (h : ChannelEffect i s t) (e : Direction) :
    t.initialized e = (s.initialized e || (!s.fatal && i.isInit && decide (channelNamed i = some e))) := by
  by_cases he : channelNamed i = some e
  · cases h with
    | kept hlanes _ hinit =>
      rw [State.initialized_congr (hlanes e)]
      obtain hf | hi | hd := hinit
      · simp [hf]
      · simp [hi]
      · simp [hd] at he
    | @init d hf hi hd =>
      obtain rfl : d = e := Option.some.inj (hd.symm.trans he)
      simp [hf, hi, hd, State.initialized]
    | @lanes d ls hi hd hl =>
      obtain rfl : d = e := Option.some.inj (hd.symm.trans he)
      simp [hi, State.initialized, hl, State.withLanes_lanes_self s d _ hl]
    | credits hi hd => simp [hi, State.initialized]
  · rw [State.initialized_congr (h.other he).1]
    simp [he]

end Sys2Proof.Machine

namespace Sys2Proof.Claims

open Sys2Proof.Machine

/-- Settles O53: a step changes nothing or has the effect of a command, and each such effect keeps the lanes sound and
the cause tied to the latch; taking the word from the port touches no clause of the invariant. -/
theorem everyStepKeepsTheInvariant : Obligations.EveryStepKeepsTheInvariant := by
  intro s t hinv hstep
  obtain hsame | ⟨rest, u, hu, heff⟩ := step_cases s
  · obtain rfl : s = t := Host.Outcome.next.inj (hsame.symm.trans hstep)
    exact hinv
  · obtain rfl : u = t := Host.Outcome.next.inj (hu.symm.trans hstep)
    exact heff.inv hinv

/-- Settles O48: read off what an operation can do to the channels, constructor by constructor. -/
theorem channelModesChangeByInitOnly : Obligations.ChannelModesChangeByInitOnly :=
  fun _ _ _ d h => (exec_channelEffect h).initialized_eq d

/-- Settles O49: what an operation does to a channel, it does to the one it names. -/
theorem otherChannelsAreUntouched : Obligations.OtherChannelsAreUntouched := by
  intro i s t e h he
  obtain ⟨hlanes, hcredits⟩ := (exec_channelEffect h).other he
  exact ⟨hlanes, State.initialized_congr hlanes, hcredits⟩

/-- Settles O56: a full lane of a sound state holds a word, so an empty one is not full. -/
theorem partialPacketsAreNeitherFullNorEmpty : Obligations.PartialPacketsAreNeitherFullNorEmpty := by
  intro s d ls hinv hl
  obtain ⟨hC, hsound, -⟩ := (State.inv_iff s).1 hinv
  have hword : ∀ j, (ls.get j).full = true → (ls.get j).q ≠ [] := fun j =>
    Lane.q_ne_nil_of_full hC ((Lanes.sound_iff _ ls).1 (hsound d ls hl) j)
  simp only [Lanes.aggFull_eq, Lanes.aggEmpty_eq, decide_eq_true_eq, decide_eq_false_iff_not, List.length_eq_zero_iff]
  constructor
  · rintro ⟨hfull, hempty⟩
    exact hword 0 (hfull 0) (hempty 0)
  · intro j k hj hk
    exact ⟨fun hfull => hword k (hfull k) hk, fun hempty => hj (hempty j)⟩

/-- Settles O57: the outputs of a channel are read off the lanes shown, of which there are none under the latch or
while it is uninitialised. -/
theorem statusOutputsShowTheState : Obligations.StatusOutputsShowTheState := by
  intro s d
  refine ⟨rfl, rfl, rfl, fun h => ?_, State.stCredits_eq_none, fun hf n hn => State.stCredits_of_live hf hn,
    fun hf ls hl => ?_⟩
  · simp [State.stLaneFull, State.stLaneEmpty, State.stFull, State.stEmpty, State.shownLanes_eq_none h]
  · have hshown : s.shownLanes d = some ls := State.shownLanes_of_live hf hl
    exact ⟨by simp [State.stFull, hshown, Lanes.aggFull_eq], by simp [State.stEmpty, hshown, Lanes.aggEmpty_eq],
      laneBits Lane.isFull ls, laneBits Lane.isEmpty ls, by simp [State.stLaneFull, hshown],
      by simp [State.stLaneEmpty, hshown], fun j => ⟨laneBits_getLsbD _ ls j, laneBits_getLsbD _ ls j⟩⟩

/-- Settles O8: a step with a word processes it, and the decoder gives only offsets of 4 bits. -/
theorem stepRunsTheDecodedOperation : Obligations.StepRunsTheDecodedOperation := by
  refine ⟨fun s => step_of_port_nil, fun s cw rest i hport hdec => ⟨decode_wf hdec, ?_⟩⟩
  rw [step_of_port hport, command_of_decode hdec]

/-- Settles O54: no channel is live, the capacity is 1, latch and cause are clear. -/
theorem resetMeetsTheInvariant : Obligations.ResetMeetsTheInvariant := by
  refine (State.inv_iff _).2 ⟨Nat.one_pos, fun d ls hl => ?_, iff_of_true rfl rfl⟩
  cases d <;> cases hl

/-- Settles O55: hardware reset discards the channels, the latch and the cause, whatever they were. -/
theorem resetLeavesNothingInitialised : Obligations.ResetLeavesNothingInitialised := by
  have hreset : ∀ d, State.reset.initialized d = false := fun d => by cases d <;> rfl
  exact ⟨hreset, rfl, rfl, fun s => ⟨fun d => by cases d <;> rfl, rfl, rfl⟩⟩

end Sys2Proof.Claims
end

section
/-! The Offset Directory (rules R31, R32), a WRITE followed by a READ (rules R38, R41), and why commands on different
channels or lanes commute (rule R42): an operation without a fatal error acts on the places it names alone. -/

namespace Sys2Proof.Machine

variable {s t u : State} {d e : Direction} {ls : Lanes} {j : Fin 4} {off : Nat} {dir : BitVec 2} {i : Instr}

/-! ## WRITE and READ on a lane of a live channel -/

/-- A WRITE to a lane with room appends the word (rule R82). -/
theorem exec_write_of_room (hf : s.fatal = false) (hd : directionOf dir = some d) (ho : laneOf off = some j)
    (hl : s.lanes d = .live ls) (hroom : (ls.get j).q.length ≠ s.capacity) (w : Word) :
    ∃ t, exec (.write dir off w) s = .next t ∧
      t.lanes d = .live (ls.set j ⟨(ls.get j).q ++ [w], decide ((ls.get j).q.length + 1 = s.capacity)⟩) ∧
      t.fatal = false ∧ t.capacity = s.capacity ∧ t.rsp = some ⟨false, true, none⟩ := by
  rw [exec, execWrite, onLane_live hf hd hl ho, Lane.push_below_capacity hroom]
  exact ⟨_, rfl, by simpa using State.withLanes_lanes_self s d _ hl, by simpa using hf, by simp, rfl⟩

/-- A READ of a lane that holds words takes the oldest (rule R83). -/
theorem exec_read_of_cons (hf : s.fatal = false) (hd : directionOf dir = some d) (ho : laneOf off = some j)
    (hl : s.lanes d = .live ls) {w : Word} {ws : List Word} (hq : (ls.get j).q = w :: ws) :
    ∃ t, exec (.read dir off) s = .next t ∧
      t.lanes d = .live (ls.set j ⟨ws, decide (ws.length = s.capacity)⟩) ∧
      t.fatal = false ∧ t.capacity = s.capacity ∧ t.rsp = some ⟨false, true, some w⟩ := by
  rw [exec, execRead, onLane_live hf hd hl ho, Lane.pop_cons hq]
  exact ⟨_, rfl, by simpa using State.withLanes_lanes_self s d _ hl, by simpa using hf, by simp, rfl⟩

/-! ## The places of the state -/

/-- A place an operation can read or write: one lane of one channel, or the credit counter (rule R10). -/
inductive Place where
  | lane (d : Direction) (j : Fin 4)
  | credits

/-- The channel a place belongs to (rules R11, R18). -/
def Place.direction : Place → Direction
  | .lane d _ => d
  | .credits => .h2rReq

/-- Lane `j` of channel `d`, absent while the channel is uninitialised (rule R25). -/
def State.laneIn (s : State) (d : Direction) (j : Fin 4) : Lifecycle Lane :=
  match s.lanes d with
  | .uninitialised => .uninitialised
  | .live ls => .live (ls.get j)

/-- Both states hold the same at place `p`. -/
def SameAt (p : Place) (s t : State) : Prop :=
  match p with
  | .lane d j => s.laneIn d j = t.laneIn d j
  | .credits => s.credits = t.credits

theorem SameAt.refl (p : Place) (s : State) : SameAt p s s := by
  cases p <;> rfl

theorem SameAt.symm {p : Place} (h : SameAt p s t) : SameAt p t s := by
  cases p <;> exact Eq.symm h

theorem SameAt.trans {p : Place} (h : SameAt p s t) (h' : SameAt p t u) : SameAt p s u := by
  cases p <;> exact Eq.trans h h'

theorem sameAt_withRsp (p : Place) (s : State) (r : Option Response) : SameAt p { s with rsp := r } s := by
  cases p with
  | lane d j => cases d <;> rfl
  | credits => rfl

/-- A lane can be read only in a live channel. -/
theorem State.laneIn_eq_live_iff {L : Lane} : s.laneIn d j = .live L ↔ ∃ ls, s.lanes d = .live ls ∧ ls.get j = L := by
  unfold State.laneIn; split <;> simp_all

theorem State.laneIn_eq_uninitialised_iff : s.laneIn d j = .uninitialised ↔ s.lanes d = .uninitialised := by
  unfold State.laneIn; split <;> simp_all

theorem State.laneIn_of_live (hl : s.lanes d = .live ls) (j : Fin 4) : s.laneIn d j = .live (ls.get j) :=
  State.laneIn_eq_live_iff.2 ⟨ls, hl, rfl⟩

theorem State.laneIn_congr (h : s.lanes d = t.lanes d) (j : Fin 4) : s.laneIn d j = t.laneIn d j := by
  simp only [State.laneIn, h]

theorem Lanes.eq_of_get_eq {ls ls' : Lanes} (h : ∀ j, ls.get j = ls'.get j) : ls = ls' := by
  obtain ⟨a, b, c, d⟩ := ls
  obtain ⟨a', b', c', d'⟩ := ls'
  obtain ⟨rfl, rfl, rfl, rfl⟩ : a = a' ∧ b = b' ∧ c = c' ∧ d = d' := ⟨h 0, h 1, h 2, h 3⟩
  rfl

/-- A channel is its four lanes. -/
theorem State.lanes_eq_of_laneIn_eq (h : ∀ j, s.laneIn d j = t.laneIn d j) : s.lanes d = t.lanes d := by
  cases hs : s.lanes d with
  | uninitialised =>
    rw [← State.laneIn_eq_uninitialised_iff (j := 0), h 0, State.laneIn_eq_uninitialised_iff] at hs
    exact hs.symm
  | live ls =>
    have hlane : ∀ j, t.laneIn d j = .live (ls.get j) := fun j => (h j).symm.trans (State.laneIn_of_live hs j)
    obtain ⟨ls', ht, -⟩ := State.laneIn_eq_live_iff.1 (hlane 0)
    have hget : ∀ j, ls.get j = ls'.get j := fun j =>
      Lifecycle.live.inj ((hlane j).symm.trans (State.laneIn_of_live ht j))
    rw [ht, Lanes.eq_of_get_eq hget]

/-- What the accessors read of the request channel is all it holds. -/
theorem State.h2rReq_eq (hl : s.lanes .h2rReq = t.lanes .h2rReq) (hc : s.credits = t.credits) :
    s.h2rReq = t.h2rReq := by
  rcases s with ⟨_ | ⟨_, _⟩⟩ <;> rcases t with ⟨_ | ⟨_, _⟩⟩ <;> simp_all [State.lanes, State.credits]

/-- A state is what its places hold, with the latch, the cause and the model's own fields. -/
theorem State.eq_of_sameAt (h : ∀ p, SameAt p s t) (hf : s.fatal = t.fatal) (hcause : s.cause = t.cause)
    (hcap : s.capacity = t.capacity) (hport : s.port = t.port) (hrsp : s.rsp = t.rsp) : s = t := by
  have hlanes : ∀ d, s.lanes d = t.lanes d := fun d => State.lanes_eq_of_laneIn_eq fun j => h (.lane d j)
  have hreq : s.h2rReq = t.h2rReq := State.h2rReq_eq (hlanes _) (h .credits)
  have hr2hReq : s.r2hReq = t.r2hReq := hlanes .r2hReq
  have hr2hRsp : s.r2hRsp = t.r2hRsp := hlanes .r2hRsp
  cases s
  cases t
  congr

/-! ## Updates of the state, as data -/

/-- What an operation that raises no fatal error can do to the channels (rules R81 to R83, R102, R103), with the values
it writes, so that one update can be carried out in two states. -/
inductive Update where
  | keep
  | init (d : Direction)
  | lane (d : Direction) (j : Fin 4) (L : Lane)
  | credits (n : BitVec 4)

/-- The state with the update carried out. -/
def State.update (s : State) : Update → State
  | .keep => s
  | .init d => s.initChannel d
  | .lane d j L => s.putLane d j L
  | .credits n => s.withCredits n

/-- The update writes place `p`. -/
def Update.Writes (x : Update) (p : Place) : Prop :=
  match x with
  | .keep => False
  | .init d => p.direction = d
  | .lane d j _ => p = .lane d j
  | .credits _ => p = .credits

theorem State.putLane_of_live (hl : s.lanes d = .live ls) (j : Fin 4) (L : Lane) :
    s.putLane d j L = s.withLanes d (ls.set j L) := by
  simp [State.putLane, hl]

theorem State.putLane_of_uninitialised (hl : s.lanes d = .uninitialised) (j : Fin 4) (L : Lane) :
    s.putLane d j L = s := by
  simp [State.putLane, hl]

theorem State.putLane_lanes_self (hl : s.lanes d = .live ls) (j : Fin 4) (L : Lane) :
    (s.putLane d j L).lanes d = .live (ls.set j L) := by
  rw [State.putLane_of_live hl, State.withLanes_lanes_self s d _ hl]

theorem State.putLane_cases (s : State) (d : Direction) (j : Fin 4) (L : Lane) :
    s.putLane d j L = s ∨ ∃ ls, s.putLane d j L = s.withLanes d ls := by
  cases hl : s.lanes d with
  | uninitialised => exact .inl (State.putLane_of_uninitialised hl j L)
  | live ls => exact .inr ⟨_, State.putLane_of_live hl j L⟩

@[simp] theorem State.putLane_credits (s : State) (d : Direction) (j : Fin 4) (L : Lane) :
    (s.putLane d j L).credits = s.credits := by
  obtain h | ⟨_, h⟩ := State.putLane_cases s d j L <;> simp [h]

theorem State.putLane_laneIn_other {L : Lane} {k : Fin 4} (h : Place.lane e k ≠ .lane d j) :
    (s.putLane d j L).laneIn e k = s.laneIn e k := by
  cases hl : s.lanes d with
  | uninitialised => rw [State.putLane_of_uninitialised hl]
  | live ls =>
    by_cases he : e = d
    · subst he
      have hk : k ≠ j := fun hk => h (hk ▸ rfl)
      rw [State.laneIn_of_live (State.putLane_lanes_self hl j L), State.laneIn_of_live hl, Lanes.get_set_other ls L hk]
    · rw [State.putLane_of_live hl]
      exact State.laneIn_congr (State.withLanes_lanes_other s d e _ he) k

theorem State.putLane_laneIn_congr (h : s.laneIn d j = t.laneIn d j) (L : Lane) :
    (s.putLane d j L).laneIn d j = (t.putLane d j L).laneIn d j := by
  cases hs : s.lanes d with
  | uninitialised =>
    have ht : t.lanes d = .uninitialised :=
      State.laneIn_eq_uninitialised_iff.1 (h.symm.trans (State.laneIn_eq_uninitialised_iff.2 hs))
    rwa [State.putLane_of_uninitialised hs, State.putLane_of_uninitialised ht]
  | live ls =>
    obtain ⟨ls', ht, -⟩ := State.laneIn_eq_live_iff.1 (h.symm.trans (State.laneIn_of_live hs j))
    rw [State.laneIn_of_live (State.putLane_lanes_self hs j L), State.laneIn_of_live (State.putLane_lanes_self ht j L),
      Lanes.get_set_self, Lanes.get_set_self]

theorem State.withCredits_credits_congr (h : s.credits = t.credits) (n : BitVec 4) :
    (s.withCredits n).credits = (t.withCredits n).credits := by
  rcases s with ⟨_ | _⟩ <;> rcases t with ⟨_ | _⟩ <;> simp_all [State.withCredits, State.credits]

/-- An update leaves the latch, the cause, the capacity and the port alone. -/
@[simp] theorem State.update_frame (s : State) (x : Update) :
    (s.update x).fatal = s.fatal ∧ (s.update x).cause = s.cause ∧ (s.update x).capacity = s.capacity ∧
      (s.update x).port = s.port := by
  cases x with
  | keep => exact ⟨rfl, rfl, rfl, rfl⟩
  | init d => simp [State.update]
  | credits n => simp [State.update]
  | lane d j L => obtain h | ⟨_, h⟩ := State.putLane_cases s d j L <;> simp [State.update, h]

/-- The places an update does not write stay. -/
theorem sameAt_update_of_not_writes {x : Update} {p : Place} (h : ¬ x.Writes p) : SameAt p (s.update x) s := by
  cases x with
  | keep => cases p <;> rfl
  | init d =>
    have hne : p.direction ≠ d := h
    cases p with
    | lane e k => exact State.laneIn_congr (State.initChannel_lanes_other s d e hne) k
    | credits => exact State.initChannel_credits_other s d hne.symm
  | lane d j L =>
    cases p with
    | lane e k => exact State.putLane_laneIn_other h
    | credits => exact State.putLane_credits s d j L
  | credits n =>
    cases p with
    | lane e k => exact State.laneIn_congr (State.withCredits_lanes s e n) k
    | credits => exact absurd rfl h

/-- What an update leaves at a place it writes depends on that place alone. -/
theorem SameAt.update_of_writes {x : Update} {p : Place} (h : SameAt p s t) (hw : x.Writes p) :
    SameAt p (s.update x) (t.update x) := by
  cases x with
  | keep => exact absurd hw id
  | init d =>
    obtain rfl : p.direction = d := hw
    cases p with
    | lane e k =>
      have hs : (s.initChannel e).lanes e = .live Lanes.cleared := State.initChannel_lanes_self s e
      exact State.laneIn_congr (hs.trans (State.initChannel_lanes_self t e).symm) k
    | credits => rfl
  | lane d j L =>
    obtain rfl : p = .lane d j := hw
    exact State.putLane_laneIn_congr h L
  | credits n =>
    obtain rfl : p = .credits := hw
    exact State.withCredits_credits_congr h n

theorem SameAt.update {p : Place} (h : SameAt p s t) (x : Update) : SameAt p (s.update x) (t.update x) := by
  by_cases hw : x.Writes p
  · exact h.update_of_writes hw
  · exact (sameAt_update_of_not_writes hw).trans (h.trans (sameAt_update_of_not_writes hw).symm)

theorem sameAt_update_respond {x : Update} {p : Place} (h : ¬ x.Writes p) (ok : Bool) (v : Option Word) :
    SameAt p ((s.update x).respond ok v) s :=
  (sameAt_withRsp p _ _).trans (sameAt_update_of_not_writes h)

/-- Where only the first of two updates writes, their order does not matter. -/
theorem sameAt_update_comm_of_not_writes {x y : Update} {p : Place} (h : ¬ y.Writes p) (ok ok' : Bool)
    (v v' : Option Word) :
    SameAt p (((s.update x).respond ok v).update y) (((s.update y).respond ok' v').update x) :=
  ((sameAt_update_of_not_writes h).trans (sameAt_withRsp p _ _)).trans
    ((sameAt_update_respond h ok' v').update x).symm

/-- Updates that write no place in common commute, up to the response. -/
theorem State.update_comm {x y : Update} (hxy : ∀ p, x.Writes p → ¬ y.Writes p) (s : State) (ok ok' : Bool)
    (v v' : Option Word) :
    { (((s.update x).respond ok v).update y) with rsp := none } =
      { (((s.update y).respond ok' v').update x) with rsp := none } := by
  refine State.eq_of_sameAt (fun p => ?_) (by simp) (by simp) (by simp) (by simp) rfl
  refine (sameAt_withRsp p _ _).trans (.trans ?_ (sameAt_withRsp p _ _).symm)
  by_cases hx : x.Writes p
  · exact sameAt_update_comm_of_not_writes (hxy p hx) ok ok' v v'
  · exact (sameAt_update_comm_of_not_writes hx ok' ok v' v).symm

/-! ## What an operation without a fatal error does -/

/-- A place that the operation can read or write: its lane if it names one, else any place of the channel it names
(rules R31, R52, R84). -/
def MayTouch (i : Instr) (p : Place) : Prop :=
  channelNamed i = some p.direction ∧ ∀ d j, laneNamed i = some (d, j) → p = .lane d j

/-- On every unlatched state that holds the same as `s` at the places of `i`, the operation does one and the same
update, of those places alone, and gives one and the same response. -/
def ActsLocally (i : Instr) (s : State) : Prop :=
  ∃ (x : Update) (ok : Bool) (v : Option Word), (∀ p, x.Writes p → MayTouch i p) ∧
    ∀ t : State, t.fatal = false → t.capacity = s.capacity → (∀ p, MayTouch i p → SameAt p t s) →
      exec i t = .next ((t.update x).respond ok v)

/-- An operation that raises no fatal error passed every check of rule R117. -/
theorem checks_of_expectedCause_none (hdir : i.dir? = some dir) (h : expectedCause i s = none) :
    ∃ d, directionOf dir = some d ∧ (i.isCredit = true → d = .h2rReq) ∧
      (i.isInit = false → ∃ ls, s.lanes d = .live ls) ∧ ∀ off, i.off? = some off → ∃ j, laneOf off = some j := by
  cases hd : directionOf dir with
  | none => simp [expectedCause, hdir, hd] at h
  | some d =>
    simp only [expectedCause, hdir, hd, ite_eq_iff] at h
    obtain ⟨-, h⟩ | ⟨hcredit, h⟩ := h
    · cases h
    obtain ⟨-, h⟩ | ⟨hlive, h⟩ := h
    · cases h
    refine ⟨d, rfl, fun hi => ?_, fun hi => ?_, fun off hoff => ?_⟩
    · by_contra hne
      exact hcredit ⟨hi, hne⟩
    · exact (State.initialized_iff s d).1 (by simpa [hi] using hlive)
    · rw [hoff] at h
      exact Option.ne_none_iff_exists'.1 fun ho => by simp [ho] at h

theorem mayTouch_of_lane (hdir : i.dir? = some dir) (hoff : i.off? = some off) (hd : directionOf dir = some d)
    (ho : laneOf off = some j) : MayTouch i (.lane d j) := by
  refine ⟨(channelNamed_eq hdir).trans hd, fun e k h => ?_⟩
  simp only [laneNamed, hdir, hoff, hd, ho] at h
  cases h
  rfl

theorem mayTouch_of_channel (hdir : i.dir? = some dir) (hoff : i.off? = none) {p : Place}
    (hd : directionOf dir = some p.direction) : MayTouch i p := by
  refine ⟨(channelNamed_eq hdir).trans hd, fun e k h => ?_⟩
  simp [laneNamed, hdir, hoff] at h

section
variable (hcause : expectedCause i s = none) (hdir : i.dir? = some dir)
include hcause hdir

/-- A query of a whole channel sees its four lanes and answers (rules R90, R92). -/
theorem onChannel_actsLocally (hi : i.isInit = false) (hoff : i.off? = none) {v : Lanes → Option Word}
    (hexec : ∀ t, exec i t = onChannel dir t fun _ ls => .next (t.respond true (v ls))) : ActsLocally i s := by
  obtain ⟨d, hd, -, hlive, -⟩ := checks_of_expectedCause_none hdir hcause
  obtain ⟨ls, hl⟩ := hlive hi
  refine ⟨.keep, true, v ls, nofun, fun t hf _ hsame => ?_⟩
  have hlanes : t.lanes d = s.lanes d :=
    State.lanes_eq_of_laneIn_eq fun j => hsame (.lane d j) (mayTouch_of_channel hdir hoff hd)
  rw [hexec, onChannel_live hf hd (hlanes.trans hl)]
  rfl

/-- An operation on one lane acts locally if what runs after its checks is decided by that lane. -/
theorem onLane_actsLocally (hi : i.isInit = false) (hoff : i.off? = some off)
    {run : State → Direction → Lanes → Fin 4 → Answer} (hexec : ∀ t, exec i t = onLane dir off t (run t))
    (hrun : ∀ d j L, ∃ (x : Update) (ok : Bool) (v : Option Word), (∀ p, x.Writes p → p = .lane d j) ∧
      ∀ (t : State) (ls : Lanes), t.capacity = s.capacity → t.lanes d = .live ls → ls.get j = L →
        run t d ls j = .next ((t.update x).respond ok v)) : ActsLocally i s := by
  obtain ⟨d, hd, -, hlive, hlane⟩ := checks_of_expectedCause_none hdir hcause
  obtain ⟨ls, hl⟩ := hlive hi
  obtain ⟨j, ho⟩ := hlane off hoff
  have htouch : MayTouch i (.lane d j) := mayTouch_of_lane hdir hoff hd ho
  obtain ⟨x, ok, v, hx, hrun⟩ := hrun d j (ls.get j)
  refine ⟨x, ok, v, fun p hp => hx p hp ▸ htouch, fun t hf hC hsame => ?_⟩
  have hin : t.laneIn d j = s.laneIn d j := hsame _ htouch
  obtain ⟨ls', hl', hget⟩ := State.laneIn_eq_live_iff.1 (hin.trans (State.laneIn_of_live hl j))
  rw [hexec, onLane_live hf hd hl' ho, hrun t ls' hC hl' hget]

/-- A credit operation acts locally if what runs after its checks is decided by the count. -/
theorem onCredits_actsLocally (hi : i.isInit = false) (hcr : i.isCredit = true) (hoff : i.off? = none)
    {run : State → BitVec 4 → Answer} (hexec : ∀ t, exec i t = onCredits dir t (run t))
    (hrun : ∀ n, ∃ (x : Update) (ok : Bool) (v : Option Word), (∀ p, x.Writes p → p = .credits) ∧
      ∀ t : State, run t n = .next ((t.update x).respond ok v)) : ActsLocally i s := by
  obtain ⟨d, hd, hreq, hlive, -⟩ := checks_of_expectedCause_none hdir hcause
  obtain rfl : d = .h2rReq := hreq hcr
  obtain ⟨n, hn⟩ := (State.credits_live_iff s).2 ((State.initialized_iff s _).2 (hlive hi))
  have htouch : MayTouch i .credits := mayTouch_of_channel hdir hoff hd
  obtain ⟨x, ok, v, hx, hrun⟩ := hrun n
  refine ⟨x, ok, v, fun p hp => hx p hp ▸ htouch, fun t hf _ hsame => ?_⟩
  have hcredits : t.credits = s.credits := hsame _ htouch
  rw [hexec, onCredits_live hf hd (hcredits.trans hn), hrun]

end

theorem init_actsLocally (hcause : expectedCause (.init dir) s = none) : ActsLocally (.init dir) s := by
  obtain ⟨d, hd, -⟩ := checks_of_expectedCause_none rfl hcause
  refine ⟨.init d, true, none, fun p hp => mayTouch_of_channel rfl rfl (hd.trans (congrArg some hp.symm)),
    fun t hf _ _ => ?_⟩
  simp [exec, execInit, unlessLatched_clear hf, withDirection, hd, State.update]

/-- An operation that raises no fatal error acts on the places it names alone (rules R21, R84, R105). -/
theorem exec_actsLocally (i : Instr) (hcause : expectedCause i s = none) : ActsLocally i s := by
  cases i with
  | nop => exact ⟨.keep, true, none, nofun, fun t hf _ _ => unlessLatched_clear hf _⟩
  | init dir => exact init_actsLocally hcause
  | write dir off w =>
    refine onLane_actsLocally hcause rfl rfl rfl (fun _ => rfl) fun d j L =>
      ⟨.lane d j (L.push s.capacity w).1, (L.push s.capacity w).2, none, fun _ hp => hp, fun t ls hC hl hL => ?_⟩
    rw [State.update, State.putLane_of_live hl, hC, hL]
  | read dir off =>
    refine onLane_actsLocally hcause rfl rfl rfl (fun _ => rfl) fun d j L =>
      ⟨.lane d j (L.pop s.capacity).1, (L.pop s.capacity).2.isSome, (L.pop s.capacity).2, fun _ hp => hp,
        fun t ls hC hl hL => ?_⟩
    rw [State.update, State.putLane_of_live hl, hC, hL]
  | isfullA | isemptyA => exact onChannel_actsLocally hcause rfl rfl rfl fun _ => rfl
  | isfullL dir off =>
    exact onLane_actsLocally hcause rfl rfl rfl (fun _ => rfl) fun d j L =>
      ⟨.keep, true, some (flagWord L.isFull), nofun, fun t ls _ _ hL => hL ▸ rfl⟩
  | isemptyL dir off =>
    exact onLane_actsLocally hcause rfl rfl rfl (fun _ => rfl) fun d j L =>
      ⟨.keep, true, some (flagWord L.isEmpty), nofun, fun t ls _ _ hL => hL ▸ rfl⟩
  | getcr =>
    exact onCredits_actsLocally hcause rfl rfl rfl rfl (fun _ => rfl) fun n => ⟨.keep, true, _, nofun, fun _ => rfl⟩
  | crinc | crdec =>
    refine onCredits_actsLocally hcause rfl rfl rfl rfl (fun _ => rfl) fun n => ?_
    split
    · exact ⟨.credits _, true, none, fun _ hp => hp, fun _ => rfl⟩
    · exact ⟨.keep, false, none, nofun, fun _ => rfl⟩

/-- Operations on different channels, or on different lanes of one, have no place in common (rule R42). -/
theorem not_mayTouch_of_apart {i j : Instr}
    (h : (∃ d e, channelNamed i = some d ∧ channelNamed j = some e ∧ d ≠ e) ∨
      (∃ d a b, laneNamed i = some (d, a) ∧ laneNamed j = some (d, b) ∧ a ≠ b)) (p : Place) (hi : MayTouch i p) :
    ¬ MayTouch j p := by
  intro hj
  obtain ⟨d, e, hid, hje, hne⟩ | ⟨d, a, b, hia, hjb, hne⟩ := h
  · have hde : some d = some e := (hid.symm.trans hi.1).trans (hj.1.symm.trans hje)
    exact hne (Option.some.inj hde)
  · have hab : Place.lane d a = .lane d b := (hi.2 d a hia).symm.trans (hj.2 d b hjb)
    cases hab
    exact hne rfl

end Sys2Proof.Machine

namespace Sys2Proof.Claims

open Sys2Proof.Machine

/-- Settles O24: the empty lane has room, as the capacity is positive, and the READ finds the word alone there. -/
theorem readAfterWriteReturnsTheWord : Obligations.ReadAfterWriteReturnsTheWord := by
  intro dir off w s d ls j hf hC hd ho hl hq
  have hroom : (ls.get j).q.length ≠ s.capacity := by simpa [hq] using hC.ne
  obtain ⟨t, hwrite, hlt, hft, hCt, -⟩ := exec_write_of_room hf hd ho hl hroom w
  have hqt : ((ls.set j ⟨(ls.get j).q ++ [w], decide ((ls.get j).q.length + 1 = s.capacity)⟩).get j).q = [w] := by
    simp [hq]
  obtain ⟨u, hread, hlu, -, -, hrsp⟩ := exec_read_of_cons hft hd ho hlt hqt
  exact ⟨t, u, _, hwrite, hread, hrsp, hlu, by simpa [hCt] using hC.ne⟩

/-- Settles O50: the two operations act on places apart, so each finds its places as they were and their updates
commute. -/
theorem independentCommandsCommute : Obligations.IndependentCommandsCommute := by
  intro i j s hf hi hj hapart
  have hdisjoint := not_mayTouch_of_apart hapart
  obtain ⟨x, ok, v, hx, hexeci⟩ := exec_actsLocally i hi
  obtain ⟨y, ok', v', hy, hexecj⟩ := exec_actsLocally j hj
  have hsi := hexeci s hf rfl fun p _ => SameAt.refl p s
  have hsj := hexecj s hf rfl fun p _ => SameAt.refl p s
  have hsij := hexecj ((s.update x).respond ok v) (by simp [hf]) (by simp) fun p hp =>
    sameAt_update_respond (fun hw => hdisjoint p (hx p hw) hp) ok v
  have hsji := hexeci ((s.update y).respond ok' v') (by simp [hf]) (by simp) fun p hp =>
    sameAt_update_respond (fun hw => hdisjoint p hp (hy p hw)) ok' v'
  have hwrites : ∀ p, x.Writes p → ¬ y.Writes p := fun p hxp hyp => hdisjoint p (hx p hxp) (hy p hyp)
  exact ⟨_, _, _, _, hsi, hsij, hsj, hsji, rfl, rfl, State.update_comm hwrites s ok ok' v v'⟩

/-- Settles O7: the first part is the table, the second runs through the 16 fields. -/
theorem offsetDirectoryHasFourEntries : Obligations.OffsetDirectoryHasFourEntries := by
  refine ⟨fun off i => ?_, by decide⟩
  rw [laneOf_eq_some_iff]
  match i with
  | 0 | 1 | 2 | 3 => simp

end Sys2Proof.Claims
end

section
/-! The encoding (rules R50, R51, R53, R57, R63): which command words decode as a given operation, said field by field and
said of the bits the operation uses. -/

namespace Sys2Proof

variable {cw : CommandWord} {i : Instr}

/-- The fields the operation uses hold its op code, its mode and its operands (rules R51, R53, R54). -/
def Instr.FieldsMatch (i : Instr) (cw : CommandWord) : Prop :=
  match i with
  | .nop => opField cw = 0
  | .init dir => opField cw = 1 ∧ dirField cw = dir
  | .write dir off wdata =>
    opField cw = 2 ∧ dirField cw = dir ∧ offField cw = BitVec.ofNat 4 off ∧ wdataField cw = wdata
  | .read dir off => opField cw = 3 ∧ dirField cw = dir ∧ offField cw = BitVec.ofNat 4 off
  | .isfullA dir => opField cw = 4 ∧ dirField cw = dir ∧ perLaneField cw = false
  | .isfullL dir off =>
    opField cw = 4 ∧ dirField cw = dir ∧ perLaneField cw = true ∧ offField cw = BitVec.ofNat 4 off
  | .isemptyA dir => opField cw = 5 ∧ dirField cw = dir ∧ perLaneField cw = false
  | .isemptyL dir off =>
    opField cw = 5 ∧ dirField cw = dir ∧ perLaneField cw = true ∧ offField cw = BitVec.ofNat 4 off
  | .getcr dir => opField cw = 6 ∧ dirField cw = dir
  | .crinc dir => opField cw = 7 ∧ dirField cw = dir
  | .crdec dir => opField cw = 8 ∧ dirField cw = dir

/-- A word decodes as an operation exactly when the fields that operation uses are its own (rule R57). -/
theorem decode_eq_instr_iff : decode cw = .instr i ↔ i.wf = true ∧ i.FieldsMatch cw := by
  constructor
  · intro h
    refine ⟨Machine.decode_wf h, ?_⟩
    unfold decode decodeFields at h
    repeat' split at h
    all_goals cases h
    all_goals simp_all [Instr.FieldsMatch, BitVec.toNat_eq]
  · rintro ⟨hwf, hm⟩
    cases i <;> simp_all [Instr.FieldsMatch, decode, decodeFields, Instr.wf, Instr.off?, Nat.mod_eq_of_lt]

/-- Whether the bit `per_lane` is part of what selects the operation (rule R54). -/
def Instr.testsMode : Instr → Bool
  | .isfullA _ | .isfullL _ _ | .isemptyA _ | .isemptyL _ _ => true
  | .nop | .init _ | .write _ _ _ | .read _ _ | .getcr _ | .crinc _ | .crdec _ => false

/-- The used bits are a mask of each field: all of the op code, and the rest as the operation uses it (rules R53, R63). -/
theorem Instr.usedBits_eq (i : Instr) :
    i.usedBits = assemble 15 (if i.dir?.isSome then 3 else 0) i.testsMode (if i.off?.isSome then 15 else 0)
      (match i with
        | .write _ _ _ => 0xFFFFFFFF
        | _ => 0) := by
  cases i <;> simp [Instr.usedBits, Instr.dir?, Instr.off?, Instr.testsMode, Instr.opcodeRow] <;> rfl

/-- A word cleared of its unused bits is the canonical one exactly when the fields the operation uses are its own. -/
theorem and_usedBits_eq_encode_iff : cw &&& i.usedBits = encode i ↔ i.FieldsMatch cw := by
  have hop : ∀ x : BitVec 4, x &&& 15#4 = x := fun _ => BitVec.and_allOnes
  have hdir : ∀ x : BitVec 2, x &&& 3#2 = x := fun _ => BitVec.and_allOnes
  have hdata : ∀ x : Word, x &&& 0xFFFFFFFF#32 = x := fun _ => BitVec.and_allOnes
  rw [Instr.usedBits_eq]
  cases i <;>
    simp [encode, eq_assemble_iff, Instr.FieldsMatch, Instr.testsMode, hop, hdir, hdata, Instr.dir?, Instr.off?]

/-- A word decodes as an operation exactly when, cleared of the unused bits, it is the operation's canonical word. -/
theorem decode_eq_instr_iff_encode : decode cw = .instr i ↔ i.wf = true ∧ cw &&& i.usedBits = encode i := by
  rw [decode_eq_instr_iff, and_usedBits_eq_encode_iff]

/-- The canonical word has its unused bits zero (rule R57). -/
theorem encode_and_usedBits (i : Instr) : encode i &&& i.usedBits = encode i := by
  rw [and_usedBits_eq_encode_iff]
  cases i <;> simp [Instr.FieldsMatch, encode]

/-- The row of an operation selects the words with its op code and, for a flag query, its mode bit (rule R63). -/
theorem Instr.opcodeRow_selects_iff (i : Instr) (cw : CommandWord) :
    i.opcodeRow.selects cw = true ↔
      opField cw = opField (encode i) ∧ (perLaneField cw && i.testsMode) = perLaneField (encode i) := by
  have hop : ∀ x : BitVec 4, x &&& 15#4 = x := fun _ => BitVec.and_allOnes
  have hmask : i.opcodeRow.mask = assemble 15 0 i.testsMode 0 0 := by
    cases i <;> simp only [Instr.opcodeRow, Instr.testsMode] <;> decide
  have hmatch : i.opcodeRow.matchBits = assemble (opField (encode i)) 0 (perLaneField (encode i)) 0 0 := by
    cases i <;> simp only [Instr.opcodeRow, encode, opField_assemble, perLaneField_assemble] <;> decide
  simp [OpcodeRow.selects, hmask, hmatch, eq_assemble_iff, hop]

/-- The op codes 9 to 15 are no operation (rule R58). -/
theorem decode_reserved (h : 9 ≤ (opField cw).toNat) : decode cw = .reject (.reservedOp (opField cw)) := by
  unfold decode decodeFields
  split <;> simp_all

theorem command_of_reserved (h : 9 ≤ (opField cw).toNat) (s : Machine.State) :
    Machine.command cw s = Machine.reservedCommand s := by
  simp [Machine.command, decode_reserved h]

/-- Only the op codes 9 to 15 are rejected (rule R61). -/
theorem reserved_of_decode_reject {r : DecodeReject} (h : decode cw = .reject r) : 9 ≤ (opField cw).toNat := by
  unfold decode decodeFields at h
  repeat' split at h
  all_goals cases h
  simp only [imp_false] at *
  omega

/-- The op code stands in the top four bits (rule R50). -/
theorem opField_toNat (cw : CommandWord) : (opField cw).toNat = (cw >>> 39).toNat := by
  have hlt : cw.toNat < 2 ^ 43 := cw.isLt
  rw [opField, BitVec.extractLsb'_toNat, BitVec.toNat_ushiftRight, Nat.mod_eq_of_lt]
  rw [Nat.shiftRight_eq_div_pow]
  omega

/-- A command word is its fields shifted into place (rule R63). -/
theorem assemble_eq_or_shifts (op : BitVec 4) (dir : BitVec 2) (perLane : Bool) (off : BitVec 4) (wdata : Word) :
    assemble op dir perLane off wdata =
      (op.setWidth 43 <<< 39) ||| (dir.setWidth 43 <<< 37) ||| ((BitVec.ofBool perLane).setWidth 43 <<< 36) |||
      (off.setWidth 43 <<< 32) ||| wdata.setWidth 43 := by
  rw [← BitVec.setWidth_eq (assemble op dir perLane off wdata)]
  simp only [assemble, BitVec.setWidth_append_eq_shiftLeft_setWidth_or, BitVec.shiftLeft_or_distrib,
    ← BitVec.shiftLeft_add]

end Sys2Proof

namespace Sys2Proof.Claims

open Sys2Proof.Machine

/-- Settles O1: the canonical word has no bit outside the used ones. -/
theorem decodingAnEncodedOperationGivesItBack : Obligations.DecodingAnEncodedOperationGivesItBack :=
  fun i hwf => decode_eq_instr_iff_encode.2 ⟨hwf, encode_and_usedBits i⟩

/-- Settles O2: decoding fixes the word on the used bits. -/
theorem reencodingKeepsEveryUsedBit : Obligations.ReencodingKeepsEveryUsedBit := by
  intro cw i hdec
  obtain ⟨hwf, hused⟩ := decode_eq_instr_iff_encode.1 hdec
  exact ⟨hwf, by rw [encode_and_usedBits, hused]⟩

/-- Settles O3: a word with the same used bits decodes as the same operation. -/
theorem unusedFieldsHaveNoInfluence : Obligations.UnusedFieldsHaveNoInfluence := by
  refine ⟨fun cw cw' i hdec hsame s rest => ?_, fun i => ?_⟩
  · obtain ⟨hwf, hused⟩ := decode_eq_instr_iff_encode.1 hdec
    have hdec' : decode cw' = .instr i := decode_eq_instr_iff_encode.2 ⟨hwf, hsame ▸ hused⟩
    rw [step_of_port rfl, step_of_port rfl, command_of_decode hdec, command_of_decode hdec']
  · rw [← encode_and_usedBits i, BitVec.and_assoc, BitVec.and_not_self]
    exact BitVec.and_zero

/-- Settles O4: a row tests the op code and, for a flag query, the mode bit, and these decide which operation is decoded. -/
theorem opcodeTableSelectsTheDecodedOperation : Obligations.OpcodeTableSelectsTheDecodedOperation := by
  refine ⟨fun cw i hdec => ?_, fun cw i hsel => ?_, assemble_eq_or_shifts⟩
  · obtain ⟨-, hfields⟩ := decode_eq_instr_iff.1 hdec
    rw [Instr.opcodeRow_selects_iff]
    cases i <;> simp_all [Instr.FieldsMatch, Instr.testsMode, encode]
  · rw [Instr.opcodeRow_selects_iff] at hsel
    cases i <;> simp_all [Instr.testsMode, encode, decode, decodeFields, Instr.opcodeRow]

/-- Settles O6: the op field of such a word is rejected, and a rejected word raises BAD_OP. -/
theorem reservedOpCodesRaiseBadOp : Obligations.ReservedOpCodesRaiseBadOp := by
  refine ⟨rfl, fun s cw rest hport hf hop => ?_⟩
  rw [step_of_port hport, command_of_reserved (opField_toNat cw ▸ hop)]
  exact unlessLatched_clear (s := { s with port := rest }) hf _

/-- Settles O5: the words are closed, so decoding them computes. -/
theorem writtenOutWordsDecode : Obligations.WrittenOutWordsDecode := by
  refine ⟨?_, ?_, ?_, ?_, ?_, ?_, ?_, ?_, ?_⟩ <;> rfl

end Sys2Proof.Claims
end

section
/-! The response to a command (rules R53, R56, R118). -/

namespace Sys2Proof

/-- Whether the operation returns a value when it succeeds (rule R53). -/
def Instr.returnsValue : Instr → Bool
  | .read _ _ | .isfullA _ | .isfullL _ _ | .isemptyA _ | .isemptyL _ _ | .getcr _ => true
  | .nop | .init _ | .write _ _ _ | .crinc _ | .crdec _ => false

end Sys2Proof

namespace Sys2Proof.Machine

/-! A predicate of what a chain of checks answers: it holds if it holds of the fatal answers and of what the checks let
through (rules R62, R118). -/

section
variable {s : State} {P : Answer → Prop} (hlatched : s.fatal = true → P (.next s.answerLatched))
  (hfatal : s.fatal = false → ∀ c, P (.next (s.takeFatal c)))
include hlatched

theorem unlessLatched_induction {run : Answer} (hrun : s.fatal = false → P run) : P (unlessLatched s run) := by
  cases hf : s.fatal with
  | true => rw [unlessLatched_set hf]; exact hlatched hf
  | false => rw [unlessLatched_clear hf]; exact hrun hf

include hfatal

theorem onChannel_induction (dir : BitVec 2) {run : Direction → Lanes → Answer}
    (hrun : ∀ d ls, s.fatal = false → P (run d ls)) : P (onChannel dir s run) := by
  obtain ⟨hf, h⟩ | ⟨hf, -, h⟩ | ⟨d, hf, -, -, h⟩ | ⟨d, ls, hf, -, -, h⟩ := onChannel_cases dir s run <;> rw [h]
  · exact hlatched hf
  · exact hfatal hf _
  · exact hfatal hf _
  · exact hrun d ls hf

theorem onLane_induction (dir : BitVec 2) (off : Nat) {run : Direction → Lanes → Fin 4 → Answer}
    (hrun : ∀ d ls j, s.fatal = false → P (run d ls j)) : P (onLane dir off s run) := by
  refine onChannel_induction hlatched hfatal dir fun d ls hf => ?_
  unfold withLane
  split
  · exact hfatal hf _
  · exact hrun d ls _ hf

theorem onCredits_induction (dir : BitVec 2) {run : BitVec 4 → Answer}
    (hrun : ∀ n, s.fatal = false → P (run n)) : P (onCredits dir s run) := by
  obtain ⟨hf, h⟩ | ⟨hf, -, h⟩ | ⟨d, hf, -, -, h⟩ | ⟨hf, -, -, h⟩ | ⟨n, hf, -, -, h⟩ := onCredits_cases dir s run <;>
    rw [h]
  · exact hlatched hf
  · exact hfatal hf _
  · exact hfatal hf _
  · exact hfatal hf _
  · exact hrun n hf

theorem execInit_induction (dir : BitVec 2)
    (hrun : ∀ d, s.fatal = false → P (.next ((s.initChannel d).respond true none))) : P (execInit dir s) := by
  refine unlessLatched_induction hlatched fun hf => ?_
  unfold withDirection
  split
  · exact hfatal hf _
  · exact hrun _ hf

end

/-! The response. -/

/-- The answer is a next state with a response that shows the latch, and with a value only where the command succeeds
and `returns` allows one. -/
def HasResponse (returns : Bool) (a : Answer) : Prop :=
  ∃ t r, a = .next t ∧ t.rsp = some r ∧ r.fatal = t.fatal ∧ (r.fatal = true → r.ok = false) ∧
    (r.value ≠ none → r.ok = true ∧ returns = true)

variable {s t : State} {returns : Bool}

theorem hasResponse_answerLatched (hf : s.fatal = true) : HasResponse returns (.next s.answerLatched) :=
  ⟨_, _, rfl, rfl, hf.symm, fun _ => rfl, fun hv => absurd rfl hv⟩

theorem hasResponse_takeFatal (s : State) (c : Cause) : HasResponse returns (.next (s.takeFatal c)) :=
  ⟨_, _, rfl, rfl, rfl, fun _ => rfl, fun hv => absurd rfl hv⟩

/-- A response to a command that no fatal error stopped. -/
theorem hasResponse_respond (hf : s.fatal = false) {ok : Bool} {v : Option Word}
    (hv : v ≠ none → ok = true ∧ returns = true) : HasResponse returns (.next (s.respond ok v)) :=
  ⟨_, _, rfl, rfl, hf.symm, nofun, hv⟩

/-- The response to every operation (rules R53, R56). -/
theorem exec_hasResponse (i : Instr) (s : State) : HasResponse i.returnsValue (exec i s) := by
  have hlatched : ∀ {b}, s.fatal = true → HasResponse b (.next s.answerLatched) := hasResponse_answerLatched
  have hfatal : ∀ {b}, s.fatal = false → ∀ c, HasResponse b (.next (s.takeFatal c)) := fun _ =>
    hasResponse_takeFatal s
  cases i with
  | nop => exact unlessLatched_induction hlatched fun hf => hasResponse_respond hf nofun
  | init dir =>
    exact execInit_induction hlatched hfatal dir fun _ hf => hasResponse_respond (by simpa using hf) nofun
  | write dir off w =>
    exact onLane_induction hlatched hfatal dir off fun _ _ _ hf => hasResponse_respond (by simpa using hf) nofun
  | read dir off =>
    exact onLane_induction hlatched hfatal dir off fun _ _ _ hf =>
      hasResponse_respond (by simpa using hf) fun hv => ⟨Option.isSome_iff_ne_none.2 hv, rfl⟩
  | isfullA dir | isemptyA dir =>
    exact onChannel_induction hlatched hfatal dir fun _ _ hf => hasResponse_respond hf fun _ => ⟨rfl, rfl⟩
  | isfullL dir off | isemptyL dir off =>
    exact onLane_induction hlatched hfatal dir off fun _ _ _ hf => hasResponse_respond hf fun _ => ⟨rfl, rfl⟩
  | getcr dir =>
    exact onCredits_induction hlatched hfatal dir fun _ hf => hasResponse_respond hf fun _ => ⟨rfl, rfl⟩
  | crinc dir | crdec dir =>
    refine onCredits_induction hlatched hfatal dir fun n hf => ?_
    split
    · exact hasResponse_respond (by simpa using hf) nofun
    · exact hasResponse_respond hf nofun

/-- The response to every command word, reserved ones included. -/
theorem command_hasResponse (cw : CommandWord) (s : State) : HasResponse true (command cw s) := by
  unfold command
  split
  · obtain ⟨t, r, ht, hr, hfatal, hok, hv⟩ := exec_hasResponse _ s
    exact ⟨t, r, ht, hr, hfatal, hok, fun h => ⟨(hv h).1, rfl⟩⟩
  · exact unlessLatched_induction hasResponse_answerLatched fun _ => hasResponse_takeFatal s _

/-! The response word (rule R56). -/

theorem Response.word_getLsbD_fatal (r : Response) : r.word.getLsbD 33 = r.fatal := by
  simp only [Response.word, BitVec.getLsbD_append]
  simp

theorem Response.word_getLsbD_ok (r : Response) : r.word.getLsbD 32 = r.ok := by
  simp only [Response.word, BitVec.getLsbD_append]
  simp

theorem Response.word_data (r : Response) : r.word.extractLsb' 0 32 = r.value.getD 0 :=
  BitVec.extractLsb'_append_eq_right

end Sys2Proof.Machine

namespace Sys2Proof.Claims

open Sys2Proof.Machine

/-- Settles O12: the first part is the layout of the word, the others are what every command answers. -/
theorem responseWordIsFatalOkData : Obligations.ResponseWordIsFatalOkData := by
  refine ⟨fun r => ⟨r.word_getLsbD_fatal, r.word_getLsbD_ok, r.word_data⟩, fun s t cw rest hport hstep => ?_,
    fun s t i w r hexec hrsp hw => ?_⟩
  · obtain ⟨u, r, hu, hr, hfatal, hok, hv⟩ := command_hasResponse cw { s with port := rest }
    obtain rfl : u = t := Host.Outcome.next.inj (hu.symm.trans ((step_of_port hport).symm.trans hstep))
    exact ⟨r, hr, hfatal, hok, fun hfail => by simpa [hfail] using hv⟩
  · obtain ⟨u, r', hu, hr, -, -, hv⟩ := exec_hasResponse i s
    obtain rfl : u = t := Host.Outcome.next.inj (hu.symm.trans hexec)
    obtain rfl : r' = r := Option.some.inj (hr.symm.trans hrsp)
    obtain ⟨hok, hreturns⟩ := hv (by simp [hw])
    exact ⟨hok, by cases i <;> simp_all [Instr.returnsValue]⟩

end Sys2Proof.Claims
end

section
/-! Operations on a live channel, run one after another (rules R65, R66, R81 to R83, R90 to R93, R101 to R103). -/

namespace Sys2Proof.Machine

variable {s t : State} {d : Direction} {ls : Lanes} {j : Fin 4} {off : Nat} {dir : BitVec 2} {i : Instr}

theorem after_of_exec (h : exec i s = .next t) : after i s = t := by
  simp [after, h]

/-! ## INITALL -/

/-- INIT of a channel under a clear latch (rule R81). -/
theorem exec_init (hf : s.fatal = false) (hd : directionOf dir = some d) :
    exec (.init dir) s = .next ((s.initChannel d).respond true none) := by
  rw [exec, execInit, unlessLatched_clear hf, withDirection, hd]

/-- INITALL is the INIT of the three channels (rule R65). -/
theorem afterAll_initAll (hf : s.fatal = false) :
    afterAll initAll s =
      (((((s.initChannel .h2rReq).respond true none).initChannel .r2hReq).respond true none).initChannel
        .r2hRsp).respond true none := by
  simp only [afterAll, initAll, List.foldl]
  rw [after_of_exec (exec_init hf rfl), after_of_exec (exec_init (dir := 1) (by simpa using hf) rfl),
    after_of_exec (exec_init (dir := 2) (by simpa using hf) rfl)]

/-! ## Packets -/

/-- The latch is clear, the capacity is `C` and channel `d` is live with the lanes `ls`. -/
structure LiveWith (d : Direction) (C : Nat) (ls : Lanes) (s : State) : Prop where
  fatal : s.fatal = false
  capacity : s.capacity = C
  lanes : s.lanes d = .live ls

variable {C : Nat}

theorem LiveWith.write (h : LiveWith d C ls s) (hd : directionOf dir = some d) (ho : laneOf off = some j)
    (hroom : (ls.get j).q.length ≠ C) (w : Word) :
    LiveWith d C (ls.set j ⟨(ls.get j).q ++ [w], decide ((ls.get j).q.length + 1 = C)⟩) (after (.write dir off w) s) := by
  obtain ⟨hf, rfl, hl⟩ := h
  obtain ⟨t, hexec, hlt, hft, hCt, -⟩ := exec_write_of_room hf hd ho hl hroom w
  rw [after_of_exec hexec]
  exact ⟨hft, hCt, hlt⟩

theorem LiveWith.read (h : LiveWith d C ls s) (hd : directionOf dir = some d) (ho : laneOf off = some j)
    {w : Word} {ws : List Word} (hq : (ls.get j).q = w :: ws) :
    LiveWith d C (ls.set j ⟨ws, decide (ws.length = C)⟩) (after (.read dir off) s) ∧
      valueOf (.read dir off) s = some w := by
  obtain ⟨hf, rfl, hl⟩ := h
  obtain ⟨t, hexec, hlt, hft, hCt, hrsp⟩ := exec_read_of_cons hf hd ho hl hq
  rw [valueOf, after_of_exec hexec, hrsp]
  exact ⟨⟨hft, hCt, hlt⟩, rfl⟩

/-- The lane that holds one word. -/
def Lane.single (C : Nat) (w : Word) : Lane := ⟨[w], decide (1 = C)⟩

/-- The lane whose one word was taken. -/
def Lane.drained (C : Nat) : Lane := ⟨[], decide (0 = C)⟩

/-- PUTPKT fills the four empty lanes of a live channel with one word each (rule R65). -/
theorem LiveWith.putPkt (h : LiveWith d C ls s) (hC : 0 < C) (hd : directionOf dir = some d)
    (hq : ∀ j, (ls.get j).q = []) (w0 w1 w2 w3 : Word) :
    LiveWith d C ⟨.single C w0, .single C w1, .single C w2, .single C w3⟩ (afterAll (putPkt dir w0 w1 w2 w3) s) := by
  obtain ⟨⟨q0, f0⟩, ⟨q1, f1⟩, ⟨q2, f2⟩, ⟨q3, f3⟩⟩ := ls
  obtain ⟨rfl, rfl, rfl, rfl⟩ : q0 = [] ∧ q1 = [] ∧ q2 = [] ∧ q3 = [] := ⟨hq 0, hq 1, hq 2, hq 3⟩
  have hroom : ([] : List Word).length ≠ C := hC.ne
  exact (((h.write hd (j := 0) rfl hroom w0).write hd (j := 1) rfl hroom w1).write hd (j := 2) rfl hroom w2).write hd
    (j := 3) rfl hroom w3

/-- GETPKT on four lanes with one word each reads each word from its own lane, and empties the lanes (rule R65). -/
theorem LiveWith.getPkt {w0 w1 w2 w3 : Word}
    (h : LiveWith d C ⟨.single C w0, .single C w1, .single C w2, .single C w3⟩ s) (hd : directionOf dir = some d) :
    LiveWith d C ⟨.drained C, .drained C, .drained C, .drained C⟩ (afterAll (getPkt dir) s) ∧
      ∀ j : Fin 4, wordsRead d j (getPkt dir) s = [#v[w0, w1, w2, w3][j]] := by
  obtain ⟨h0, hv0⟩ := h.read hd (j := 0) (off := 0x0) rfl rfl
  obtain ⟨h1, hv1⟩ := h0.read hd (j := 1) (off := 0x4) rfl rfl
  obtain ⟨h2, hv2⟩ := h1.read hd (j := 2) (off := 0x8) rfl rfl
  obtain ⟨h3, hv3⟩ := h2.read hd (j := 3) (off := 0xc) rfl rfl
  refine ⟨h3, fun j => ?_⟩
  have hlane : ∀ (k : Fin 4) off, laneOf off = some k → laneNamed (.read dir off) = some (d, k) := fun k off ho => by
    simp [laneNamed, Instr.dir?, Instr.off?, hd, ho]
  simp only [Sys2Proof.getPkt, wordsRead, hv0, hv1, hv2, hv3, hlane 0 0x0 rfl, hlane 1 0x4 rfl, hlane 2 0x8 rfl,
    hlane 3 0xc rfl]
  match j with
  | 0 | 1 | 2 | 3 => simp

/-! ## The source's calls -/

@[simp] theorem directionOf_directionCode (d : Direction) : directionOf (directionCode d) = some d := by
  cases d <;> rfl

/-- A push succeeds exactly on a lane with room (rule R70). -/
theorem Lane.push_ok (C : Nat) (L : Lane) (w : Word) : (L.push C w).2 = decide (L.q.length ≠ C) := by
  by_cases h : L.q.length = C
  · simp [Lane.push_at_capacity h, h]
  · simp [Lane.push_below_capacity h, h]

/-- A pop gives the oldest word, if there is one (rule R71). -/
theorem Lane.pop_word (C : Nat) (L : Lane) : (L.pop C).2 = L.q.head? := by
  unfold Lane.pop
  split <;> simp_all

/-- The call's command is answered without a fatal error and the call returns `res`. -/
def Returns (c : SourceCall) (d : Direction) (s : State) (res : SourceResult) : Prop :=
  ∃ t r, exec (c.command d) s = .next t ∧ t.rsp = some r ∧ c.result r = res

theorem returns_of_respond {c : SourceCall} {ok : Bool} {v : Option Word} {res : SourceResult}
    (hexec : exec (c.command d) s = .next (t.respond ok v)) (hres : c.result ⟨false, ok, v⟩ = res) :
    Returns c d s res :=
  ⟨_, _, hexec, rfl, hres⟩

/-- Bit 0 of a response that carries a flag is the flag (rules R8, R56). -/
theorem Response.word_flag (fatal ok b : Bool) : (Response.word ⟨fatal, ok, some (flagWord b)⟩).getLsbD 0 = b := by
  cases fatal <;> cases ok <;> cases b <;> rfl

/-- Bits 3 to 0 of a response that carries a count are the count (rules R56, R101). -/
theorem Response.word_credits (fatal ok : Bool) (n : BitVec 4) :
    (Response.word ⟨fatal, ok, some (creditWord n)⟩).extractLsb' 0 4 = n := by
  rw [Response.word, BitVec.extractLsb'_append_eq_of_add_le (by decide)]
  simp [creditWord, BitVec.extractLsb'_setWidth_of_le]

theorem creditIncrement_returns {n : BitVec 4} (hf : s.fatal = false) (hn : s.credits = .live n) :
    Returns .creditIncrement .h2rReq s (.bool (decide (n.toNat < 15))) := by
  have hexec : exec (SourceCall.creditIncrement.command .h2rReq) s = _ := onCredits_live hf rfl hn _
  split at hexec
  next hlt => exact returns_of_respond hexec (congrArg SourceResult.bool (decide_eq_true hlt).symm)
  next hge => exact returns_of_respond hexec (congrArg SourceResult.bool (decide_eq_false hge).symm)

theorem creditDecrement_returns {n : BitVec 4} (hf : s.fatal = false) (hn : s.credits = .live n) :
    Returns .creditDecrement .h2rReq s (.bool (decide (0 < n.toNat))) := by
  have hexec : exec (SourceCall.creditDecrement.command .h2rReq) s = _ := onCredits_live hf rfl hn _
  split at hexec
  next hpos => exact returns_of_respond hexec (congrArg SourceResult.bool (decide_eq_true hpos).symm)
  next hzero => exact returns_of_respond hexec (congrArg SourceResult.bool (decide_eq_false hzero).symm)

end Sys2Proof.Machine

namespace Sys2Proof.Claims

open Sys2Proof.Machine

/-- Settles O51: the three INITs name the three channels, and each leaves the other two alone. -/
theorem initallMakesEveryChannelLive : Obligations.InitallMakesEveryChannelLive := by
  intro s hf
  rw [afterAll_initAll hf]
  refine ⟨fun d => ⟨Lanes.cleared, ?_, Lanes.cleared_get⟩, rfl, hf, rfl, rfl, rfl⟩
  cases d <;> rfl

/-- Settles O52: PUTPKT leaves one word on each lane and GETPKT takes each from its own. -/
theorem packetPutIsThePacketGot : Obligations.PacketPutIsThePacketGot := by
  intro dir d w0 w1 w2 w3 s ls hf hC hd hl hq
  have hput := LiveWith.putPkt ⟨hf, rfl, hl⟩ hC hd hq w0 w1 w2 w3
  obtain ⟨hget, hwords⟩ := hput.getPkt hd
  refine ⟨fun hone => ?_, hwords, ?_⟩
  · obtain ⟨hfp, -, hlp⟩ := hput
    have hfull : Lanes.aggFull ⟨.single 1 w0, .single 1 w1, .single 1 w2, .single 1 w3⟩ = true := rfl
    rw [exec, execIsfullA, onChannel_live hfp hd hlp, hone, hfull]
    rfl
  · rw [afterAll, List.foldl_append]
    refine ⟨_, hget.lanes, ?_⟩
    exact (Lanes.forall_get_iff _ fun L => L.q = []).2 ⟨rfl, rfl, rfl, rfl⟩

/-- Settles O58: each query answers from the lanes it is let through to. -/
theorem sourceCallsReturnFlagsAndCount : Obligations.SourceCallsReturnFlagsAndCount := by
  intro s d ls hf hl
  have hd := directionOf_directionCode d
  refine ⟨?_, ?_, fun off j ho => ?_, fun off j ho => ?_, ?_⟩
  · refine returns_of_respond (onChannel_live hf hd hl _) ?_
    rw [← Lanes.aggFull_eq]
    exact congrArg SourceResult.bool (Response.word_flag _ _ _)
  · refine returns_of_respond (onChannel_live hf hd hl _) ?_
    rw [← Lanes.aggEmpty_eq]
    exact congrArg SourceResult.bool (Response.word_flag _ _ _)
  · exact returns_of_respond (onLane_live hf hd hl ho _) (congrArg SourceResult.bool (Response.word_flag _ _ _))
  · exact returns_of_respond (onLane_live hf hd hl ho _) (congrArg SourceResult.bool (Response.word_flag _ _ _))
  · rintro n rfl hn
    refine returns_of_respond (onCredits_live hf hd hn _) ?_
    exact congrArg (fun m : BitVec 4 => SourceResult.int m.toNat) (Response.word_credits _ _ n)

/-- Settles O59: each call answers by the guard of its rule. -/
theorem sourceCallsThatActReturnTheirSuccess : Obligations.SourceCallsThatActReturnTheirSuccess := by
  intro s d hf
  have hd := directionOf_directionCode d
  refine ⟨returns_of_respond (exec_init hf hd) rfl, fun ls hl => ⟨fun off j w ho => ?_, fun off j ho => ?_, ?_⟩⟩
  · exact returns_of_respond (onLane_live hf hd hl ho _) (congrArg SourceResult.bool (Lane.push_ok _ _ _))
  · refine returns_of_respond (onLane_live hf hd hl ho _) ?_
    rw [Lane.pop_word]
    cases (ls.get j).q <;> rfl
  · rintro n rfl hn
    exact ⟨creditIncrement_returns hf hn, creditDecrement_returns hf hn⟩

end Sys2Proof.Claims
end

section
/-! A command as the decoding procedure (rule R62): each chain of checks as lines 1 to 10, each operation's effect as
line 11. -/

namespace Sys2Proof.Machine

variable {s : State} {d : Direction} {ls : Lanes} {j : Fin 4} {dir : BitVec 2}

/-! ## Lines 1 to 10 -/

/-- The direction the listing reads off the `dir` field once the value 3 is excluded (rule R62). -/
def listedDirection (dir : BitVec 2) : Direction :=
  if dir = 0 then .h2rReq else if dir = 1 then .r2hReq else .r2hRsp

theorem directionOf_eq_some_iff : directionOf dir = some d ↔ dir ≠ 3#2 ∧ listedDirection dir = d := by
  cases d <;> revert dir <;> decide

theorem unlessLatched_eq_next (s t : State) :
    unlessLatched s (.next t) = .next (if s.fatal then s.answerLatched else t) :=
  (apply_ite Host.Outcome.next _ _ _).symm

/-- INIT skips the lines 7 to 10. -/
theorem execInit_eq_next (dir : BitVec 2) (s : State) :
    execInit dir s = .next (if s.fatal then s.answerLatched else if dir = 3 then s.takeFatal .badDir
      else (s.initChannel (listedDirection dir)).respond true none) := by
  rw [execInit]
  obtain ⟨hd, h⟩ | ⟨d, hd, h⟩ := withDirection_cases dir s fun d => .next ((s.initChannel d).respond true none) <;>
    rw [h, unlessLatched_eq_next]
  · simp [(directionOf_eq_none_iff dir).1 hd]
  · obtain ⟨hne, rfl⟩ := directionOf_eq_some_iff.1 hd
    simp [hne]

theorem onChannel_eq_next {run : Direction → Lanes → Answer} {body : Direction → State}
    (hrun : ∀ d ls, s.lanes d = .live ls → run d ls = .next (body d)) :
    onChannel dir s run = .next (if s.fatal then s.answerLatched else if dir = 3 then s.takeFatal .badDir
      else if s.initialized (listedDirection dir) = false then s.takeFatal .uninit
      else body (listedDirection dir)) := by
  obtain ⟨hf, h⟩ | ⟨hf, hd, h⟩ | ⟨d, hf, hd, hl, h⟩ | ⟨d, ls, hf, hd, hl, h⟩ := onChannel_cases dir s run <;> rw [h, hf]
  · simp
  · simp [(directionOf_eq_none_iff dir).1 hd]
  · obtain ⟨hne, rfl⟩ := directionOf_eq_some_iff.1 hd
    simp [hne, (State.not_initialized_iff s _).2 hl]
  · obtain ⟨hne, rfl⟩ := directionOf_eq_some_iff.1 hd
    simp [hne, (State.initialized_iff s _).2 ⟨ls, hl⟩, hrun _ ls hl]

theorem onLane_eq_next (off : BitVec 4) {run : Direction → Lanes → Fin 4 → Answer} {body : Direction → Fin 4 → State}
    (hrun : ∀ d ls j, s.lanes d = .live ls → run d ls j = .next (body d j)) :
    onLane dir off.toNat s run = .next (if s.fatal then s.answerLatched else if dir = 3 then s.takeFatal .badDir
      else if s.initialized (listedDirection dir) = false then s.takeFatal .uninit
      else if off.extractLsb' 0 2 ≠ 0 then s.takeFatal .badOffset
      else body (listedDirection dir) (off.extractLsb' 2 2).toFin) := by
  refine onChannel_eq_next (body := fun d =>
    if off.extractLsb' 0 2 ≠ 0 then s.takeFatal .badOffset else body d (off.extractLsb' 2 2).toFin) fun d ls hl => ?_
  rw [withLane, Claims.offsetDirectoryHasFourEntries.2 off, laneOfField]
  by_cases hoff : off.extractLsb' 0 2 = 0
  · simp only [hoff, if_true, ne_eq, not_true_eq_false, if_false, hrun d ls _ hl]
  · simp only [hoff, if_false, ne_eq, not_false_eq_true, if_true]

theorem onCredits_eq_next {run : BitVec 4 → Answer} {body : State}
    (hrun : ∀ n, s.credits = .live n → run n = .next body) :
    onCredits dir s run = .next (if s.fatal then s.answerLatched else if dir = 3 then s.takeFatal .badDir
      else if listedDirection dir ≠ .h2rReq then s.takeFatal .noCredit
      else if s.initialized (listedDirection dir) = false then s.takeFatal .uninit else body) := by
  obtain ⟨hf, h⟩ | ⟨hf, hd, h⟩ | ⟨d, hf, hd, hreq, h⟩ | ⟨hf, hd, hn, h⟩ | ⟨n, hf, hd, hn, h⟩ :=
    onCredits_cases dir s run <;> rw [h, hf]
  · simp
  · simp [(directionOf_eq_none_iff dir).1 hd]
  · obtain ⟨hne, rfl⟩ := directionOf_eq_some_iff.1 hd
    simp [hne, hreq]
  · obtain ⟨hne, hreq⟩ := directionOf_eq_some_iff.1 hd
    have hi : s.initialized .h2rReq = false := by
      by_contra h
      obtain ⟨m, hm⟩ := (State.credits_live_iff s).2 (by simpa using h)
      simp [hn] at hm
    simp [hne, hreq, hi]
  · obtain ⟨hne, hreq⟩ := directionOf_eq_some_iff.1 hd
    simp [hne, hreq, (State.credits_live_iff s).1 ⟨n, hn⟩, hrun n hn]

/-! ## Line 11 -/

theorem State.laneAt_of_live (hl : s.lanes d = .live ls) (j : Fin 4) : s.laneAt d j = ls.get j := by
  simp [State.laneAt, hl]

theorem State.creditsAt_of_live {n : BitVec 4} (hn : s.credits = .live n) : s.creditsAt = n.toNat := by
  simp [State.creditsAt, hn]

variable (perLane : Bool) (w : Word)

/-- WRITE at line 11 (rule R82). -/
theorem executeListing_write (hl : s.lanes d = .live ls) (j : Fin 4) :
    executeListing 2 d perLane j w s =
      (s.withLanes d (ls.set j ((ls.get j).push s.capacity w).1)).respond ((ls.get j).push s.capacity w).2 none := by
  by_cases hfull : (ls.get j).q.length = s.capacity
  · simp [executeListing, State.laneAt_of_live hl, Lane.push_at_capacity hfull, hfull, State.withLanes_same s d ls hl]
  · simp [executeListing, State.laneAt_of_live hl, Lane.push_below_capacity hfull, hfull, State.putLane_of_live hl]

/-- READ at line 11 (rule R83). -/
theorem executeListing_read (hl : s.lanes d = .live ls) (j : Fin 4) :
    executeListing 3 d perLane j w s =
      (s.withLanes d (ls.set j ((ls.get j).pop s.capacity).1)).respond ((ls.get j).pop s.capacity).2.isSome
        ((ls.get j).pop s.capacity).2 := by
  cases hq : (ls.get j).q with
  | nil => simp [executeListing, State.laneAt_of_live hl, Lane.pop_empty hq, hq, State.withLanes_same s d ls hl]
  | cons v vs => simp [executeListing, State.laneAt_of_live hl, Lane.pop_cons hq, hq, State.putLane_of_live hl]

/-- ISFULL.A at line 11 (rule R90). -/
theorem executeListing_isfullA (hl : s.lanes d = .live ls) (j : Fin 4) :
    executeListing 4 d false j w s = s.respond true (some (flagWord ls.aggFull)) := by
  simp only [executeListing, State.laneAt_of_live hl]
  rfl

/-- ISFULL.L at line 11 (rule R91). -/
theorem executeListing_isfullL (hl : s.lanes d = .live ls) (j : Fin 4) :
    executeListing 4 d true j w s = s.respond true (some (flagWord (ls.get j).isFull)) := by
  simp only [executeListing, State.laneAt_of_live hl]
  rfl

/-- ISEMPTY.A at line 11 (rule R92). -/
theorem executeListing_isemptyA (hl : s.lanes d = .live ls) (j : Fin 4) :
    executeListing 5 d false j w s = s.respond true (some (flagWord ls.aggEmpty)) := by
  simp only [executeListing, State.laneAt_of_live hl]
  rfl

/-- ISEMPTY.L at line 11 (rule R93). -/
theorem executeListing_isemptyL (hl : s.lanes d = .live ls) (j : Fin 4) :
    executeListing 5 d true j w s = s.respond true (some (flagWord (ls.get j).isEmpty)) := by
  simp only [executeListing, State.laneAt_of_live hl]
  rfl

variable {n : BitVec 4}

/-- GETCR at line 11 (rule R101). -/
theorem executeListing_getcr (hn : s.credits = .live n) (d : Direction) (j : Fin 4) :
    executeListing 6 d perLane j w s = s.respond true (some (creditWord n)) := by
  simp [executeListing, State.creditsAt_of_live hn, creditWord]

/-- CRINC at line 11 (rule R102). -/
theorem executeListing_crinc (hn : s.credits = .live n) (d : Direction) (j : Fin 4) :
    executeListing 7 d perLane j w s =
      if n.toNat < Config.maxCredits then (s.withCredits (BitVec.ofNat 4 (n.toNat + 1))).respond true none
      else s.respond false none := by
  simp only [executeListing, State.creditsAt_of_live hn]
  rfl

/-- CRDEC at line 11 (rule R103). -/
theorem executeListing_crdec (hn : s.credits = .live n) (d : Direction) (j : Fin 4) :
    executeListing 8 d perLane j w s =
      if 0 < n.toNat then (s.withCredits (BitVec.ofNat 4 (n.toNat - 1))).respond true none
      else s.respond false none := by
  simp [executeListing, State.creditsAt_of_live hn]

/-! ## The listing -/

/-- The listing with its fields in place and the direction by name. -/
theorem listing_eq (cw : CommandWord) (s : State) :
    listing cw s =
      if s.fatal then s.answerLatched
      else if (opField cw).toNat = 0 then s.respond true none
      else if 9 ≤ (opField cw).toNat then s.takeFatal .badOp
      else if dirField cw = 3 then s.takeFatal .badDir
      else if ((opField cw).toNat = 6 ∨ (opField cw).toNat = 7 ∨ (opField cw).toNat = 8) ∧
        listedDirection (dirField cw) ≠ .h2rReq then s.takeFatal .noCredit
      else if (opField cw).toNat ≠ 1 ∧ s.initialized (listedDirection (dirField cw)) = false then s.takeFatal .uninit
      else if ((opField cw).toNat = 2 ∨ (opField cw).toNat = 3 ∨
        (((opField cw).toNat = 4 ∨ (opField cw).toNat = 5) ∧ perLaneField cw = true)) ∧
          (offField cw).extractLsb' 0 2 ≠ 0 then s.takeFatal .badOffset
      else executeListing (opField cw).toNat (listedDirection (dirField cw)) (perLaneField cw)
        ((offField cw).extractLsb' 2 2).toFin (wdataField cw) s := rfl

section
variable {cw : CommandWord}

theorem onChannel_eq_listing {run : Direction → Lanes → Answer}
    (hop : (opField cw).toNat = 4 ∨ (opField cw).toNat = 5) (hmode : perLaneField cw = false)
    (hrun : ∀ d ls, s.lanes d = .live ls → run d ls = .next (executeListing (opField cw).toNat d (perLaneField cw)
      ((offField cw).extractLsb' 2 2).toFin (wdataField cw) s)) :
    onChannel (dirField cw) s run = .next (listing cw s) := by
  rw [onChannel_eq_next hrun, listing_eq]
  obtain hop | hop := hop <;> simp [hop, hmode]

theorem onLane_eq_listing {run : Direction → Lanes → Fin 4 → Answer}
    (hop : (opField cw).toNat = 2 ∨ (opField cw).toNat = 3 ∨
      (((opField cw).toNat = 4 ∨ (opField cw).toNat = 5) ∧ perLaneField cw = true))
    (hrun : ∀ d ls j, s.lanes d = .live ls → run d ls j =
      .next (executeListing (opField cw).toNat d (perLaneField cw) j (wdataField cw) s)) :
    onLane (dirField cw) (offField cw).toNat s run = .next (listing cw s) := by
  rw [onLane_eq_next _ hrun, listing_eq]
  obtain hop | hop | ⟨hop | hop, hmode⟩ := hop <;> simp [*]

theorem onCredits_eq_listing {run : BitVec 4 → Answer}
    (hop : (opField cw).toNat = 6 ∨ (opField cw).toNat = 7 ∨ (opField cw).toNat = 8)
    (hrun : ∀ n, s.credits = .live n → run n = .next (executeListing (opField cw).toNat
      (listedDirection (dirField cw)) (perLaneField cw) ((offField cw).extractLsb' 2 2).toFin (wdataField cw) s)) :
    onCredits (dirField cw) s run = .next (listing cw s) := by
  rw [onCredits_eq_next hrun, listing_eq]
  obtain hop | hop | hop := hop <;> simp [hop]

end

/-- Every operation is the listing on its words; the cases are the rows of `decodeFields`, in its order. -/
theorem exec_eq_listing {cw : CommandWord} {i : Instr} (h : decode cw = .instr i) (s : State) :
    exec i s = .next (listing cw s) := by
  unfold decode decodeFields at h
  repeat' split at h
  all_goals cases h
  next hop =>
    rw [exec, execNop, unlessLatched_eq_next, listing_eq]
    simp [hop]
  next hop =>
    rw [exec, execInit_eq_next, listing_eq]
    simp [hop, executeListing]
  next hop =>
    exact onLane_eq_listing (.inl hop) fun d ls j hl => by rw [hop, executeListing_write _ _ hl]
  next hop =>
    exact onLane_eq_listing (.inr (.inl hop)) fun d ls j hl => by rw [hop, executeListing_read _ _ hl]
  next hop hmode =>
    exact onLane_eq_listing (.inr (.inr ⟨.inl hop, hmode⟩)) fun d ls j hl => by
      rw [hop, hmode, executeListing_isfullL _ hl]
  next hop hmode =>
    have hmode : perLaneField cw = false := by simpa using hmode
    exact onChannel_eq_listing (.inl hop) hmode fun d ls hl => by rw [hop, hmode, executeListing_isfullA _ hl]
  next hop hmode =>
    exact onLane_eq_listing (.inr (.inr ⟨.inr hop, hmode⟩)) fun d ls j hl => by
      rw [hop, hmode, executeListing_isemptyL _ hl]
  next hop hmode =>
    have hmode : perLaneField cw = false := by simpa using hmode
    exact onChannel_eq_listing (.inr hop) hmode fun d ls hl => by rw [hop, hmode, executeListing_isemptyA _ hl]
  next hop =>
    exact onCredits_eq_listing (.inl hop) fun n hn => by rw [hop, executeListing_getcr _ _ hn]
  next hop =>
    exact onCredits_eq_listing (.inr (.inl hop)) fun n hn => by
      rw [hop, executeListing_crinc _ _ hn, apply_ite Host.Outcome.next]
  next hop =>
    exact onCredits_eq_listing (.inr (.inr hop)) fun n hn => by
      rw [hop, executeListing_crdec _ _ hn, apply_ite Host.Outcome.next]

theorem command_eq_listing (cw : CommandWord) (s : State) : command cw s = .next (listing cw s) := by
  cases hdec : decode cw with
  | instr i => rw [command_of_decode hdec, exec_eq_listing hdec]
  | reject r =>
    have hop : 9 ≤ (opField cw).toNat := reserved_of_decode_reject hdec
    have hop0 : (opField cw).toNat ≠ 0 := by omega
    rw [command_of_reserved hop, reservedCommand, unlessLatched_eq_next, listing_eq, if_neg hop0, if_pos hop]

end Sys2Proof.Machine

namespace Sys2Proof.Claims

open Sys2Proof.Machine

/-- Settles O9: each chain of checks is lines 1 to 10 of the listing, and each operation's effect is line 11. -/
theorem stepFollowsTheDecodingProcedure : Obligations.StepFollowsTheDecodingProcedure := by
  intro s cw rest hport
  rw [step_of_port hport, command_eq_listing]

end Sys2Proof.Claims
end

section
/-! The Lane Queue (rules R70 to R76): a run of pushes followed by a run of pops, and the words of a lane conserved over
any operations that do not clear it (rules R27, R75). -/

namespace Sys2Proof.Machine

variable {s : State} {d : Direction} {j : Fin 4} {off : Nat} {dir : BitVec 2} {i : Instr} {C : Nat} {L : Lane}

/-- (I-LEN) and (I-FULL) of one lane (rule R27). -/
theorem Lane.sound_iff : L.sound C = true ↔ L.q.length ≤ C ∧ L.full = decide (L.q.length = C) := by
  simp [Lane.sound]

/-! ## Pushes and pops one after another -/

/-- Words that fit in the room left are all accepted and stand behind those the lane held (rule R75). -/
theorem Lane.pushAll_of_room {ws : List Word} (hroom : L.q.length + ws.length ≤ C) :
    (L.pushAll C ws).2 = List.replicate ws.length true ∧ (L.pushAll C ws).1.q = L.q ++ ws := by
  induction ws generalizing L with
  | nil => simp [Lane.pushAll]
  | cons w ws ih =>
    rw [List.length_cons] at hroom
    have hpush := Lane.push_below_capacity (C := C) (L := L) (by omega) w
    obtain ⟨hok, hq⟩ := @ih (L.push C w).1 (by rw [hpush, List.length_append, List.length_singleton]; omega)
    simp only [Lane.pushAll, hok, hq]
    simp [hpush, List.replicate_succ]

/-- As many pops as a lane holds words give them in order and leave it empty (rule R75). -/
theorem Lane.popAll_length {ws : List Word} (hq : L.q = ws) :
    (L.popAll C ws.length).2 = ws.map some ∧ (L.popAll C ws.length).1.q = [] := by
  induction ws generalizing L with
  | nil => exact ⟨rfl, hq⟩
  | cons w ws ih =>
    have hpop := Lane.pop_cons (C := C) hq
    obtain ⟨hwords, hempty⟩ := @ih (L.pop C).1 (by rw [hpop])
    simp only [List.length_cons, Lane.popAll, hwords, hempty]
    simp [hpop]

/-! ## One operation and the words of one lane -/

/-- What a push adds to a lane's words (rule R70). -/
theorem Lane.push_q (C : Nat) (L : Lane) (w : Word) :
    (L.push C w).1.q = L.q ++ if (L.push C w).2 = true then [w] else [] := by
  by_cases h : L.q.length = C
  · simp [Lane.push_at_capacity h]
  · simp [Lane.push_below_capacity h]

/-- What a pop takes from a lane's words (rule R71). -/
theorem Lane.pop_q (C : Nat) (L : Lane) : (L.pop C).2.toList ++ (L.pop C).1.q = L.q := by
  cases hq : L.q with
  | nil => simp [Lane.pop_empty hq, hq]
  | cons w ws => simp [Lane.pop_cons hq]

/-- An operation that replaces the lane it names, seen from lane `j` of `d`: it raises a fatal error, or it names another
lane, or it replaces this one and answers by it (rules R84, R118). -/
theorem onLane_laneIn_cases (hdir : i.dir? = some dir) (hoff : i.off? = some off) (hL : s.laneIn d j = .live L)
    (f : Lane → Lane) (ok : Lane → Bool) (v : Lane → Option Word) {run : Direction → Lanes → Fin 4 → Answer}
    (hrun : ∀ d ls j, run d ls j =
      .next ((s.withLanes d (ls.set j (f (ls.get j)))).respond (ok (ls.get j)) (v (ls.get j)))) :
    ∃ t, onLane dir off s run = .next t ∧
      ((t.rsp = some Response.ofFatal ∧ t.laneIn d j = .live L) ∨
        (laneNamed i ≠ some (d, j) ∧ t.laneIn d j = .live L) ∨
        (laneNamed i = some (d, j) ∧ t.rsp = some ⟨false, ok L, v L⟩ ∧ t.laneIn d j = .live (f L))) := by
  have hfatal : ∀ c, (s.takeFatal c).laneIn d j = .live L := fun c => (State.laneIn_congr (by simp) j).trans hL
  obtain ⟨-, h⟩ | ⟨-, -, h⟩ | ⟨-, -, -, -, h⟩ | ⟨-, -, -, -, -, -, h⟩ | ⟨e, ls, k, -, hd, hl, ho, h⟩ :=
    onLane_cases dir off s run
  · exact ⟨_, h, .inl ⟨rfl, (State.laneIn_congr (by simp) j).trans hL⟩⟩
  · exact ⟨_, h, .inl ⟨rfl, hfatal _⟩⟩
  · exact ⟨_, h, .inl ⟨rfl, hfatal _⟩⟩
  · exact ⟨_, h, .inl ⟨rfl, hfatal _⟩⟩
  have hnamed : laneNamed i = some (e, k) := by simp [laneNamed, hdir, hoff, hd, ho]
  refine ⟨_, h.trans (hrun e ls k), .inr ?_⟩
  by_cases hplace : (e, k) = (d, j)
  · cases hplace
    obtain rfl : ls.get j = L := Lifecycle.live.inj ((State.laneIn_of_live hl j).symm.trans hL)
    have hlanes := State.withLanes_lanes_self s d (ls.set j (f (ls.get j))) hl
    exact .inr ⟨hnamed, rfl, State.laneIn_eq_live_iff.2 ⟨_, by simpa using hlanes, by simp⟩⟩
  · refine .inl ⟨by rwa [hnamed, ne_eq, Option.some.injEq], ?_⟩
    have hother : Place.lane d j ≠ .lane e k := fun h => by cases h; exact hplace rfl
    rw [← State.putLane_of_live hl, State.laneIn_congr (State.respond_lanes _ _ _ _) j,
      State.putLane_laneIn_other hother, hL]

/-! ## Conservation over a sequence of operations -/

/-- Over the operations `is` from `s` no word of lane `j` of channel `d` is lost, invented or reordered, and the channel
stays live: what the lane held and WRITE put there is what READ took and what it still holds (rules R27, R75). -/
def Conserves (d : Direction) (j : Fin 4) (is : List Instr) (s : State) : Prop :=
  ∀ L, s.laneIn d j = .live L → ∃ L', (afterAll is s).laneIn d j = .live L' ∧
    L.q ++ wordsWritten d j is s = wordsRead d j is s ++ L'.q

theorem wordsWritten_cons (d : Direction) (j : Fin 4) (i : Instr) (is : List Instr) (s : State) :
    wordsWritten d j (i :: is) s = wordsWritten d j [i] s ++ wordsWritten d j is (after i s) := by
  simp [wordsWritten]

theorem wordsRead_cons (d : Direction) (j : Fin 4) (i : Instr) (is : List Instr) (s : State) :
    wordsRead d j (i :: is) s = wordsRead d j [i] s ++ wordsRead d j is (after i s) := by
  simp [wordsRead]

theorem conserves_nil (d : Direction) (j : Fin 4) (s : State) : Conserves d j [] s :=
  fun L hL => ⟨L, hL, by simp [wordsWritten, wordsRead]⟩

theorem Conserves.cons {is : List Instr} (hi : Conserves d j [i] s) (his : Conserves d j is (after i s)) :
    Conserves d j (i :: is) s := by
  intro L hL
  obtain ⟨M, hM, hone⟩ := hi L hL
  obtain ⟨N, hN, hrest⟩ := his M hM
  refine ⟨N, hN, ?_⟩
  rw [wordsWritten_cons, wordsRead_cons, ← List.append_assoc, hone, List.append_assoc, hrest, List.append_assoc]

/-- A WRITE that is refused, or names another lane, adds no word; any other adds its word (rules R82, R84). -/
theorem write_conserves (d : Direction) (j : Fin 4) (dir : BitVec 2) (off : Nat) (w : Word) (s : State) :
    Conserves d j [.write dir off w] s := by
  intro L hL
  obtain ⟨t, hexec, heff⟩ := onLane_laneIn_cases (i := .write dir off w) rfl rfl hL
    (fun L => (L.push s.capacity w).1) (fun L => (L.push s.capacity w).2) (fun _ => none) fun _ _ _ => rfl
  have hafter : after (.write dir off w) s = t := after_of_exec hexec
  simp only [afterAll, List.foldl, wordsWritten, wordsRead, succeeds, hafter]
  obtain ⟨hrsp, ht⟩ | ⟨hne, ht⟩ | ⟨hnamed, hrsp, ht⟩ := heff
  · exact ⟨L, ht, by simp [hrsp, Response.ofFatal]⟩
  · exact ⟨L, ht, by simp [hne]⟩
  · exact ⟨_, ht, by simp [hnamed, hrsp, Lane.push_q]⟩

/-- A READ that fails, or names another lane, takes no word; any other takes the oldest (rules R83, R84). -/
theorem read_conserves (d : Direction) (j : Fin 4) (dir : BitVec 2) (off : Nat) (s : State) :
    Conserves d j [.read dir off] s := by
  intro L hL
  obtain ⟨t, hexec, heff⟩ := onLane_laneIn_cases (i := .read dir off) rfl rfl hL
    (fun L => (L.pop s.capacity).1) (fun L => (L.pop s.capacity).2.isSome) (fun L => (L.pop s.capacity).2)
    fun _ _ _ => rfl
  have hafter : after (.read dir off) s = t := after_of_exec hexec
  simp only [afterAll, List.foldl, wordsWritten, wordsRead, valueOf, hafter]
  obtain ⟨hrsp, ht⟩ | ⟨hne, ht⟩ | ⟨hnamed, hrsp, ht⟩ := heff
  · exact ⟨L, ht, by simp [hrsp, Response.ofFatal]⟩
  · exact ⟨L, ht, by simp [hne]⟩
  · exact ⟨_, ht, by simp [hnamed, hrsp, Lane.pop_q]⟩

/-- The answer is a next state in which channel `d` holds the lanes it held. -/
def KeepsLanes (d : Direction) (s : State) (a : Answer) : Prop :=
  ∃ t, a = .next t ∧ t.lanes d = s.lanes d

theorem KeepsLanes.conserves (h : KeepsLanes d s (exec i s)) (hw : wordsWritten d j [i] s = [])
    (hr : wordsRead d j [i] s = []) : Conserves d j [i] s := by
  intro L hL
  obtain ⟨t, hexec, hlanes⟩ := h
  have hafter : afterAll [i] s = t := after_of_exec hexec
  exact ⟨L, hafter ▸ (State.laneIn_congr hlanes j).trans hL, by rw [hw, hr, List.append_nil, List.nil_append]⟩

/-- Every operation conserves the words of a lane, but for an INIT of its channel, which clears it (rules R27, R81):
WRITE and READ by what they do to the lane, any other as it leaves the lanes of the channel alone (rules R21, R94,
R105). -/
theorem exec_conserves (j : Fin 4) (s : State) (hinit : i.isInit = true → channelNamed i ≠ some d) :
    Conserves d j [i] s := by
  have hlatched : s.fatal = true → KeepsLanes d s (.next s.answerLatched) := fun _ => ⟨_, rfl, by simp⟩
  have hfatal : s.fatal = false → ∀ c, KeepsLanes d s (.next (s.takeFatal c)) := fun _ _ => ⟨_, rfl, by simp⟩
  have hanswer : ∀ ok v, KeepsLanes d s (.next (s.respond ok v)) := fun _ _ => ⟨_, rfl, by simp⟩
  cases i with
  | write dir off w => exact write_conserves d j dir off w s
  | read dir off => exact read_conserves d j dir off s
  | init dir =>
    obtain ⟨t, hexec, heff⟩ := exec_hasChannelEffect (.init dir) s
    exact KeepsLanes.conserves ⟨t, hexec, (heff.other (hinit rfl)).1⟩ rfl rfl
  | nop => exact KeepsLanes.conserves (unlessLatched_induction hlatched fun _ => hanswer _ _) rfl rfl
  | isfullA | isemptyA =>
    exact KeepsLanes.conserves (onChannel_induction hlatched hfatal _ fun _ _ _ => hanswer _ _) rfl rfl
  | isfullL | isemptyL =>
    exact KeepsLanes.conserves (onLane_induction hlatched hfatal _ _ fun _ _ _ _ => hanswer _ _) rfl rfl
  | getcr => exact KeepsLanes.conserves (onCredits_induction hlatched hfatal _ fun _ _ => hanswer _ _) rfl rfl
  | crinc | crdec =>
    refine KeepsLanes.conserves (onCredits_induction hlatched hfatal _ fun n _ => ?_) rfl rfl
    split
    · exact ⟨_, rfl, by simp⟩
    · exact hanswer _ _

theorem afterAll_conserves (j : Fin 4) (is : List Instr) (s : State)
    (hinit : ∀ i ∈ is, i.isInit = true → channelNamed i ≠ some d) : Conserves d j is s := by
  induction is generalizing s with
  | nil => exact conserves_nil d j s
  | cons i is ih =>
    obtain ⟨hi, his⟩ := List.forall_mem_cons.1 hinit
    exact (exec_conserves j s hi).cons (ih (after i s) his)

end Sys2Proof.Machine

namespace Sys2Proof.Claims

open Sys2Proof.Machine

/-- Settles O16: the pushes leave the lane holding exactly the words pushed, which the pops then take. -/
theorem wordsPushedComeBackInOrder : Obligations.WordsPushedComeBackInOrder := by
  intro C L ws hempty hfit
  obtain ⟨hok, hq⟩ := Lane.pushAll_of_room (C := C) (L := L) (ws := ws) (by simpa [hempty] using hfit)
  rw [hempty, List.nil_append] at hq
  exact ⟨hok, Lane.popAll_length hq⟩

/-- Settles O25: each operation conserves the lane's words, and by induction so does the sequence. -/
theorem laneHoldsWhatWasWrittenAndNotRead : Obligations.LaneHoldsWhatWasWrittenAndNotRead := by
  intro d j is s ls hl hinit
  obtain ⟨L', hL', hwords⟩ := afterAll_conserves j is s hinit _ (State.laneIn_of_live hl j)
  obtain ⟨ls', hl', rfl⟩ := State.laneIn_eq_live_iff.1 hL'
  exact ⟨ls', hl', hwords⟩

/-- Settles O13: the two cases of a push. -/
theorem pushAppendsUnlessFull : Obligations.PushAppendsUnlessFull := fun _ _ w =>
  ⟨fun h => Lane.push_at_capacity h w, fun h => Lane.push_below_capacity h w⟩

/-- Settles O14: the two cases of a pop; what is left of a lane within its capacity is shorter than that. -/
theorem popTakesTheOldestWord : Obligations.PopTakesTheOldestWord := by
  refine fun C L => ⟨Lane.pop_empty, fun w rest hq => ⟨Lane.pop_cons hq, fun hfit => ?_⟩⟩
  rw [hq, List.length_cons] at hfit
  rw [Lane.pop_cons hq]
  exact decide_eq_false (by omega)

/-- Settles O15: soundness ties the stored flag to the size, and at capacity 1 the size is 0 or 1. -/
theorem laneQueriesAgreeWithTheSize : Obligations.LaneQueriesAgreeWithTheSize := by
  refine fun C L => ⟨rfl, rfl, by simp [Lane.isEmpty, Lane.size], fun hs => ?_, fun hs => ?_⟩
  · obtain ⟨-, hflag⟩ := Lane.sound_iff.1 hs
    simp [Lane.isFull, Lane.size, hflag]
  · obtain ⟨hlen, hflag⟩ := Lane.sound_iff.1 hs
    rw [Lane.isEmpty, Lane.isFull, hflag, ← decide_not]
    exact decide_eq_decide.2 (by omega)

/-- Settles O17: with the valid bit set the lane is full and holds the register, with it clear it is empty. -/
theorem oneEntryCellRefinesTheLane : Obligations.OneEntryCellRefinesTheLane := by
  rintro ⟨D, V⟩ w
  cases V with
  | true => exact ⟨rfl, rfl, rfl, rfl⟩
  | false => exact ⟨rfl, rfl, rfl, rfl⟩

end Sys2Proof.Claims
end

section
/-! The data operations NOP, INIT, WRITE and READ (rules R80 to R84): their words, the fatal errors their checks raise,
and the one channel or lane they change. -/

namespace Sys2Proof

variable {cw : CommandWord}

/-- A word that agrees with an operation's row of the opcode table has that operation's op code (rule R63). -/
theorem opField_of_opcodeRow (i : Instr) (hrow : cw &&& i.opcodeRow.mask = i.opcodeRow.matchBits) :
    opField cw = opField (encode i) :=
  ((i.opcodeRow_selects_iff cw).1 (beq_iff_eq.2 hrow)).1

theorem offField_eq_ofNat (cw : CommandWord) : offField cw = BitVec.ofNat 4 (offField cw).toNat := by simp

end Sys2Proof

namespace Sys2Proof.Machine

open Sys2Proof.Claims

variable {s t : State} {d : Direction} {ls : Lanes} {j : Fin 4} {off : Nat} {dir : BitVec 2} {i : Instr}

/-! ## The fatal errors of a chain of checks (rule R117) -/

theorem withDirection_badDir (h : dir = 3) (s : State) (run : Direction → Answer) :
    withDirection dir s run = .next (s.takeFatal .badDir) := by
  rw [withDirection, (directionOf_eq_none_iff dir).2 h]

theorem onChannel_badDir (hf : s.fatal = false) (h : dir = 3) (run : Direction → Lanes → Answer) :
    onChannel dir s run = .next (s.takeFatal .badDir) := by
  rw [onChannel, unlessLatched_clear hf, withDirection_badDir h]

theorem onChannel_uninit (hf : s.fatal = false) (hd : directionOf dir = some d) (hl : s.lanes d = .uninitialised)
    (run : Direction → Lanes → Answer) : onChannel dir s run = .next (s.takeFatal .uninit) := by
  simp [onChannel, unlessLatched_clear hf, withDirection, hd, withLive, hl]

/-- Outside the four offsets the directory names no lane (rule R31). -/
theorem laneOf_eq_none (h : off ∉ [0x0, 0x4, 0x8, 0xc]) : laneOf off = none := by
  simp only [List.mem_cons, List.not_mem_nil, or_false, not_or] at h
  simp [laneOf, h]

theorem withLane_badOffset (h : off ∉ [0x0, 0x4, 0x8, 0xc]) (s : State) (run : Fin 4 → Answer) :
    withLane off s run = .next (s.takeFatal .badOffset) := by
  rw [withLane, laneOf_eq_none h]

/-- An operation on a whole channel raises its fatal errors in priority order, and else runs (rules R112, R114). -/
theorem channelRule_of_onChannel {run : State → Direction → Lanes → Answer} {body : State → Direction → Lanes → Prop}
    (hexec : ∀ s, exec i s = onChannel dir s (run s))
    (hbody : ∀ s d ls, s.lanes d = .live ls → exec i s = run s d ls → body s d ls) : channelRule i dir body := by
  refine fun s hf => ⟨fun h3 => ?_, fun d hd => ⟨fun hl => ?_, fun ls hl => ?_⟩⟩
  · exact (hexec s).trans (onChannel_badDir hf h3 _)
  · exact (hexec s).trans (onChannel_uninit hf hd hl _)
  · exact hbody s d ls hl ((hexec s).trans (onChannel_live hf hd hl _))

/-- An operation on one lane raises its fatal errors in priority order, and else runs (rules R112 to R114). -/
theorem laneRule_of_onLane {run : State → Direction → Lanes → Fin 4 → Answer}
    {body : State → Direction → Lanes → Fin 4 → Prop} (hexec : ∀ s, exec i s = onLane dir off s (run s))
    (hbody : ∀ s d ls j, s.lanes d = .live ls → exec i s = run s d ls j → body s d ls j) :
    laneRule i dir off body := by
  refine channelRule_of_onChannel hexec fun s d ls hl hrun => ⟨fun hoff => ?_, fun j hj => ?_⟩
  · exact hrun.trans (withLane_badOffset hoff s _)
  · rw [withLane, (laneOf_eq_some_iff off j).2 hj] at hrun
    exact hbody s d ls j hl hrun

/-! ## INIT -/

/-- INIT of the unrecognised direction under a clear latch (rules R81, R114). -/
theorem exec_init_badDir (hf : s.fatal = false) (h : dir = 3) :
    exec (.init dir) s = .next (s.takeFatal .badDir) := by
  rw [exec, execInit, unlessLatched_clear hf, withDirection_badDir h]

theorem exec_init_latched (hf : s.fatal = true) : exec (.init dir) s = .next s.answerLatched :=
  unlessLatched_set hf _

/-- Both times the channel and the response are the same (rule R81). -/
theorem State.initChannel_respond_idem (s : State) (d : Direction) (ok : Bool) (v : Option Word) :
    (((s.initChannel d).respond ok v).initChannel d).respond ok v = (s.initChannel d).respond ok v := by
  cases d <;> rfl

theorem State.initChannel_credits (s : State) (d : Direction) :
    (s.initChannel d).credits = if d = .h2rReq then .live 15 else s.credits := by
  split
  next h => rw [h, State.initChannel_credits_request]
  next h => exact State.initChannel_credits_other s d h

/-! ## One lane replaced -/

/-- What an operation does that replaces lane `j` of channel `d` by `L` and answers `ok = 1` (rules R82 to R84). -/
theorem exec_replaces_lane {L : Lane} {v : Option Word} (hl : s.lanes d = .live ls)
    (hexec : exec i s = .next ((s.withLanes d (ls.set j L)).respond true v)) :
    ∃ (t : State) (ls' : Lanes), exec i s = .next t ∧ t.rsp = some ⟨false, true, v⟩ ∧ t.lanes d = .live ls' ∧
      ls'.get j = L ∧ (∀ k, k ≠ j → ls'.get k = ls.get k) ∧ sameButLanes d s t := by
  refine ⟨_, ls.set j L, hexec, rfl, ?_, Lanes.get_set_self ls j L, fun k => Lanes.get_set_other ls L, ?_⟩
  · simpa using State.withLanes_lanes_self s d _ hl
  · exact ⟨fun e he => by simpa using State.withLanes_lanes_other s d e _ he, by simp⟩

/-! ## The places WRITE and READ leave alone (rule R84) -/

theorem sameAt_of_lanes_eq (hlanes : ∀ d, t.lanes d = s.lanes d) (hcredits : t.credits = s.credits) (p : Place) :
    SameAt p t s := by
  cases p with
  | lane d j => exact State.laneIn_congr (hlanes d) j
  | credits => exact hcredits

/-- An operation that replaces the lane it names leaves every other place alone, also when a check stops it. -/
theorem onLane_sameAt (hdir : i.dir? = some dir) (hoff : i.off? = some off)
    {run : Direction → Lanes → Fin 4 → Answer}
    (hrun : ∀ d ls j, ∃ L ok v, run d ls j = .next ((s.withLanes d (ls.set j L)).respond ok v)) {p : Place}
    (hp : ∀ d j, p = .lane d j → laneNamed i ≠ some (d, j)) : ∃ t, onLane dir off s run = .next t ∧ SameAt p t s := by
  have hfatal : ∀ c, SameAt p (s.takeFatal c) s := fun c => sameAt_of_lanes_eq (by simp) (by simp) p
  obtain ⟨-, h⟩ | ⟨-, -, h⟩ | ⟨-, -, -, -, h⟩ | ⟨-, -, -, -, -, -, h⟩ | ⟨d, ls, j, -, hd, hl, ho, h⟩ :=
    onLane_cases dir off s run
  · exact ⟨_, h, sameAt_of_lanes_eq (by simp) (by simp) p⟩
  · exact ⟨_, h, hfatal _⟩
  · exact ⟨_, h, hfatal _⟩
  · exact ⟨_, h, hfatal _⟩
  · obtain ⟨L, ok, v, heff⟩ := hrun d ls j
    have hnamed : laneNamed i = some (d, j) := by simp [laneNamed, hdir, hoff, hd, ho]
    rw [← State.putLane_of_live hl] at heff
    exact ⟨_, h.trans heff, sameAt_update_respond (x := .lane d j L) (fun hw => hp d j hw hnamed) ok v⟩

theorem exec_write_or_read_sameAt (hi : (∃ dir off w, i = .write dir off w) ∨ (∃ dir off, i = .read dir off))
    (hexec : exec i s = .next t) {p : Place} (hp : ∀ d j, p = .lane d j → laneNamed i ≠ some (d, j)) :
    SameAt p t s := by
  have hanswer : ∃ u, exec i s = .next u ∧ SameAt p u s := by
    obtain ⟨dir, off, w, rfl⟩ | ⟨dir, off, rfl⟩ := hi
    · exact onLane_sameAt rfl rfl (fun _ _ _ => ⟨_, _, _, rfl⟩) hp
    · exact onLane_sameAt rfl rfl (fun _ _ _ => ⟨_, _, _, rfl⟩) hp
  obtain ⟨u, hu, hsame⟩ := hanswer
  obtain rfl : u = t := Host.Outcome.next.inj (hu.symm.trans hexec)
  exact hsame

theorem exec_commandEffect (h : exec i s = .next t) : CommandEffect s t := by
  obtain ⟨u, hu, heff⟩ := exec_hasEffect i s
  obtain rfl : u = t := Host.Outcome.next.inj (hu.symm.trans h)
  exact heff

end Sys2Proof.Machine

namespace Sys2Proof.Claims

open Sys2Proof.Machine

/-- Settles O19: a recognised direction leaves INIT's effect on its channel, whose frame the lemmas of `initChannel`
give. -/
theorem initFollowsItsRule : Obligations.InitFollowsItsRule := by
  refine ⟨fun cw hop => ?_, fun dir s hf => ⟨exec_init_badDir hf, fun d hd => ?_⟩⟩
  · exact decode_eq_instr_iff.2 ⟨rfl, opField_of_opcodeRow (.init 0) hop, rfl⟩
  · have hother : ∀ e, e ≠ d → ((s.initChannel d).respond true none).lanes e = s.lanes e := fun e he => by
      simpa using State.initChannel_lanes_other s d e he
    exact ⟨_, Lanes.cleared, exec_init hf hd, rfl, by simp, Lanes.cleared_get, State.initChannel_credits s d, hother,
      by simp⟩

/-- Settles O20: after a fatal error INIT is answered under the latch, and else it clears a cleared channel. -/
theorem initTwiceIsInitOnce : Obligations.InitTwiceIsInitOnce := by
  intro dir s t hexec
  cases hf : s.fatal with
  | true =>
    obtain rfl : s.answerLatched = t := Host.Outcome.next.inj ((exec_init_latched hf).symm.trans hexec)
    exact exec_init_latched hf
  | false =>
    cases hd : directionOf dir with
    | none =>
      have hbad : exec (.init dir) s = _ := exec_init_badDir hf ((directionOf_eq_none_iff dir).1 hd)
      obtain rfl : s.takeFatal .badDir = t := Host.Outcome.next.inj (hbad.symm.trans hexec)
      exact exec_init_latched rfl
    | some d =>
      obtain rfl : (s.initChannel d).respond true none = t :=
        Host.Outcome.next.inj ((exec_init hf hd).symm.trans hexec)
      rw [exec_init (by simpa using hf) hd, State.initChannel_respond_idem]

/-- Settles O21: behind the checks WRITE puts back the full lane it found, or the lane with the word appended. -/
theorem writeFollowsItsRule : Obligations.WriteFollowsItsRule := by
  refine ⟨fun cw hop => ?_, fun dir off w => laneRule_of_onLane (fun _ => rfl) fun s d ls j hl hexec =>
    ⟨fun hfull => ?_, fun hroom => ?_⟩⟩
  · exact decode_eq_instr_iff.2 ⟨decide_eq_true (offField cw).isLt, opField_of_opcodeRow (.write 0 0 0) hop, rfl,
      offField_eq_ofNat cw, rfl⟩
  · rw [hexec, Lane.push_at_capacity hfull, Lanes.set_get, State.withLanes_same s d ls hl]
    rfl
  · rw [Lane.push_below_capacity hroom] at hexec
    exact exec_replaces_lane hl hexec

/-- Settles O22: behind the checks READ puts back the empty lane it found, or the lane without its oldest word. -/
theorem readFollowsItsRule : Obligations.ReadFollowsItsRule := by
  refine ⟨fun cw hop => ?_, fun dir off => laneRule_of_onLane (fun _ => rfl) fun s d ls j hl hexec =>
    ⟨fun hempty => ?_, fun w rest hq => ?_⟩⟩
  · exact decode_eq_instr_iff.2 ⟨decide_eq_true (offField cw).isLt, opField_of_opcodeRow (.read 0 0) hop, rfl,
      offField_eq_ofNat cw⟩
  · rw [hexec, Lane.pop_empty hempty, Lanes.set_get, State.withLanes_same s d ls hl]
    rfl
  · rw [Lane.pop_cons hq] at hexec
    exact exec_replaces_lane hl hexec

/-- Settles O23: every place but the lane named holds the same, and no operation but INIT changes a channel's mode. -/
theorem writeAndReadTouchOneLane : Obligations.WriteAndReadTouchOneLane := by
  intro i s t hi hexec
  have hinit : i.isInit = false := by
    obtain ⟨_, _, _, rfl⟩ | ⟨_, _, rfl⟩ := hi <;> rfl
  have hmode : ∀ e, t.initialized e = s.initialized e := fun e => by
    simpa [hinit] using channelModesChangeByInitOnly i s t e hexec
  have heff := exec_commandEffect hexec
  refine ⟨fun e ls hl => ?_, fun e hu => ?_, exec_write_or_read_sameAt hi hexec (p := .credits) nofun,
    heff.capacity_eq, heff.port_eq⟩
  · obtain ⟨ls', hl'⟩ := (t.initialized_iff e).1 ((hmode e).trans ((s.initialized_iff e).2 ⟨ls, hl⟩))
    refine ⟨ls', hl', fun k hne => ?_⟩
    have hsame : t.laneIn e k = s.laneIn e k :=
      exec_write_or_read_sameAt hi hexec (p := .lane e k) fun d j h => by cases h; exact hne
    rw [State.laneIn_of_live hl', State.laneIn_of_live hl] at hsame
    exact Lifecycle.live.inj hsame
  · exact (t.not_initialized_iff e).1 ((hmode e).trans ((s.not_initialized_iff e).2 hu))

/-- Settles O18: the op code is all that NOP's encoding fixes, and the latch is all that NOP's answer depends on. -/
theorem nopFollowsItsRule : Obligations.NopFollowsItsRule := by
  refine ⟨fun cw => ?_, fun s hf => unlessLatched_clear hf _, fun s hf => unlessLatched_set hf _⟩
  rw [decode_eq_instr_iff_encode]
  exact ⟨fun hop => ⟨rfl, hop⟩, And.right⟩

end Sys2Proof.Claims
end

section
/-! The flag queries (rules R90 to R94): their words, the flag each answers with, their purity, and what a lane query
foretells of a WRITE or READ of the same address. -/

namespace Sys2Proof

/-- A word that agrees with a flag query's row of the opcode table has its op code and its mode (rules R54, R63). -/
theorem opField_perLaneField_of_opcodeRow {cw : CommandWord} (i : Instr) (hmode : i.testsMode = true)
    (hrow : cw &&& i.opcodeRow.mask = i.opcodeRow.matchBits) :
    opField cw = opField (encode i) ∧ perLaneField cw = perLaneField (encode i) := by
  simpa [hmode] using (i.opcodeRow_selects_iff cw).1 (beq_iff_eq.2 hrow)

end Sys2Proof

namespace Sys2Proof.Machine

open Sys2Proof.Claims

variable {s t : State} {d : Direction} {ls : Lanes} {j : Fin 4} {off : Nat} {dir : BitVec 2} {i : Instr}

/-! ## The answer as a flag -/

theorem flagWord_decide (p : Prop) [Decidable p] : flagWord (decide p) = bit p := by
  by_cases h : p
  · rw [decide_eq_true h, bit, if_pos h]
    rfl
  · rw [decide_eq_false h, bit, if_neg h]
    rfl

/-- The answer to a query that is decided by `p`. -/
theorem respond_flagWord_decide (s : State) (p : Prop) [Decidable p] :
    s.respond true (some (flagWord (decide p))) = answered s true (some (bit p)) := by
  rw [flagWord_decide]
  rfl

theorem answers_one_iff (s : State) (p : Prop) [Decidable p] :
    (.next (answered s true (some (bit p))) : Answer) = .next (answered s true (some 1)) ↔ p := by
  by_cases h : p <;> simp [h]

/-! ## A rule where the checks let the operation through -/

theorem channelRule_live {body : State → Direction → Lanes → Prop} (h : channelRule i dir body)
    (hf : s.fatal = false) (hd : directionOf dir = some d) (hl : s.lanes d = .live ls) : body s d ls :=
  ((h s hf).2 d hd).2 ls hl

theorem laneRule_live {body : State → Direction → Lanes → Fin 4 → Prop} (h : laneRule i dir off body)
    (hf : s.fatal = false) (hd : directionOf dir = some d) (hl : s.lanes d = .live ls) (ho : off = 4 * j.val) :
    body s d ls j :=
  (channelRule_live h hf hd hl).2 j ho

/-- The four offsets are those of the four lanes (rule R31). -/
theorem forall_mem_offsets_iff {P : Nat → Prop} :
    (∀ off ∈ [0x0, 0x4, 0x8, 0xc], P off) ↔ ∀ j : Fin 4, P (4 * j.val) := by
  simp [Fin.forall_fin_succ]

/-- A query that answers whether every lane has a property answers 1 exactly when the query of the property does at each
offset (rule R15). -/
theorem aggregate_answers_one_iff {p : Lane → Prop} [DecidablePred p] {laneQuery : Nat → Instr}
    (haggregate : channelRule i dir fun s _ ls => exec i s = .next (answered s true (some (bit (∀ j, p (ls.get j))))))
    (hlane : ∀ off, laneRule (laneQuery off) dir off fun s _ ls j =>
      exec (laneQuery off) s = .next (answered s true (some (bit (p (ls.get j))))))
    (hf : s.fatal = false) (hd : directionOf dir = some d) (hl : s.lanes d = .live ls) :
    exec i s = .next (answered s true (some 1)) ↔
      ∀ off ∈ [0x0, 0x4, 0x8, 0xc], exec (laneQuery off) s = .next (answered s true (some 1)) := by
  rw [forall_mem_offsets_iff, channelRule_live haggregate hf hd hl, answers_one_iff]
  exact forall_congr' fun j => by rw [laneRule_live (hlane _) hf hd hl rfl, answers_one_iff]

/-! ## Purity (rule R94) -/

/-- An operation is pure if behind its checks, whatever else the state holds, it raises a fatal error or answers a
flag. -/
theorem exec_pure_of_onChannel {run : State → Direction → Lanes → Answer}
    (hexec : ∀ s, exec i s = onChannel dir s (run s))
    (hrun : ∀ d ls, (∃ c, ∀ s, run s d ls = .next (s.takeFatal c)) ∨
      ∃ b, ∀ s, run s d ls = .next (s.respond true (some (flagWord b))))
    (hst : exec i s = .next t) (hft : t.fatal = false) :
    (t = answered s true (some 0) ∨ t = answered s true (some 1)) ∧ exec i t = .next t := by
  have hfatal : ∀ c, t ≠ s.takeFatal c := by
    rintro c rfl
    cases hft
  rw [hexec] at hst
  obtain ⟨hf, h⟩ | ⟨-, -, h⟩ | ⟨-, -, -, -, h⟩ | ⟨d, ls, hf, hd, hl, h⟩ := onChannel_cases dir s (run s) <;>
    rw [h] at hst
  · obtain rfl : s.answerLatched = t := Host.Outcome.next.inj hst
    simp [hf] at hft
  · exact absurd (Host.Outcome.next.inj hst).symm (hfatal _)
  · exact absurd (Host.Outcome.next.inj hst).symm (hfatal _)
  · obtain ⟨c, hc⟩ | ⟨b, hb⟩ := hrun d ls
    · exact absurd (Host.Outcome.next.inj ((hc s).symm.trans hst)).symm (hfatal c)
    · obtain rfl : s.respond true (some (flagWord b)) = t := Host.Outcome.next.inj ((hb s).symm.trans hst)
      constructor
      · cases b with
        | false => exact .inl rfl
        | true => exact .inr rfl
      · rw [hexec, onChannel_live hft hd ((State.respond_lanes _ _ _ _).trans hl), hb]
        rfl

/-- The same for an operation that looks up an offset first. -/
theorem exec_pure_of_onLane {f : Lane → Bool}
    (hexec : ∀ s, exec i s = onLane dir off s fun _ ls j => .next (s.respond true (some (flagWord (f (ls.get j))))))
    (hst : exec i s = .next t) (hft : t.fatal = false) :
    (t = answered s true (some 0) ∨ t = answered s true (some 1)) ∧ exec i t = .next t := by
  refine exec_pure_of_onChannel hexec (fun d ls => ?_) hst hft
  cases ho : laneOf off with
  | none => exact .inl ⟨.badOffset, fun s => by rw [withLane, ho]⟩
  | some j => exact .inr ⟨f (ls.get j), fun s => by rw [withLane, ho]⟩

/-! ## When WRITE and READ fail (rule R121) -/

theorem exec_write_refused_iff (hf : s.fatal = false) (hd : directionOf dir = some d) (hl : s.lanes d = .live ls)
    (ho : off = 4 * j.val) (w : Word) :
    exec (.write dir off w) s = .next (answered s false none) ↔ (ls.get j).q.length = s.capacity := by
  obtain ⟨hrefused, haccepted⟩ := laneRule_live (writeFollowsItsRule.2 dir off w) hf hd hl ho
  refine ⟨fun hexec => ?_, hrefused⟩
  by_contra hroom
  obtain ⟨t, ls', ht, hrsp, -⟩ := haccepted hroom
  obtain rfl : t = answered s false none := Host.Outcome.next.inj (ht.symm.trans hexec)
  cases hrsp

theorem exec_read_failed_iff (hf : s.fatal = false) (hd : directionOf dir = some d) (hl : s.lanes d = .live ls)
    (ho : off = 4 * j.val) :
    exec (.read dir off) s = .next (answered s false none) ↔ (ls.get j).q = [] := by
  obtain ⟨hfailed, htaken⟩ := laneRule_live (readFollowsItsRule.2 dir off) hf hd hl ho
  refine ⟨fun hexec => ?_, hfailed⟩
  by_contra hne
  obtain ⟨w, rest, hq⟩ := List.exists_cons_of_ne_nil hne
  obtain ⟨t, ls', ht, hrsp, -⟩ := htaken w rest hq
  obtain rfl : t = answered s false none := Host.Outcome.next.inj (ht.symm.trans hexec)
  cases hrsp

end Sys2Proof.Machine

namespace Sys2Proof.Claims

open Sys2Proof.Machine

/-- Settles O26: behind the checks the answer is the aggregate flag, which is the AND over the four lanes. -/
theorem isfullAFollowsItsRule : Obligations.IsfullAFollowsItsRule := by
  refine ⟨fun cw hrow => ?_, fun dir => channelRule_of_onChannel (fun _ => rfl) fun s d ls _ hexec => ?_⟩
  · obtain ⟨hop, hmode⟩ := opField_perLaneField_of_opcodeRow (.isfullA 0) rfl hrow
    exact decode_eq_instr_iff.2 ⟨rfl, hop, rfl, hmode⟩
  · rw [hexec, Lanes.aggFull_eq, respond_flagWord_decide]

/-- Settles O27: behind the checks the answer is the named lane's stored flag. -/
theorem isfullLFollowsItsRule : Obligations.IsfullLFollowsItsRule := by
  refine ⟨fun cw hrow => ?_, fun dir off => laneRule_of_onLane (fun _ => rfl) fun s d ls j _ hexec => ?_⟩
  · obtain ⟨hop, hmode⟩ := opField_perLaneField_of_opcodeRow (.isfullL 0 0) rfl hrow
    exact decode_eq_instr_iff.2 ⟨decide_eq_true (offField cw).isLt, hop, rfl, hmode, offField_eq_ofNat cw⟩
  · rw [hexec, ← respond_flagWord_decide, Bool.decide_eq_true, Lane.isFull]

/-- Settles O28: behind the checks the answer is the aggregate flag, which is the AND over the four lanes. -/
theorem isemptyAFollowsItsRule : Obligations.IsemptyAFollowsItsRule := by
  refine ⟨fun cw hrow => ?_, fun dir => channelRule_of_onChannel (fun _ => rfl) fun s d ls _ hexec => ?_⟩
  · obtain ⟨hop, hmode⟩ := opField_perLaneField_of_opcodeRow (.isemptyA 0) rfl hrow
    exact decode_eq_instr_iff.2 ⟨rfl, hop, rfl, hmode⟩
  · rw [hexec, Lanes.aggEmpty_eq, respond_flagWord_decide]

/-- Settles O29: behind the checks the answer is whether the named lane's length is 0. -/
theorem isemptyLFollowsItsRule : Obligations.IsemptyLFollowsItsRule := by
  refine ⟨fun cw hrow => ?_, fun dir off => laneRule_of_onLane (fun _ => rfl) fun s d ls j _ hexec => ?_⟩
  · obtain ⟨hop, hmode⟩ := opField_perLaneField_of_opcodeRow (.isemptyL 0 0) rfl hrow
    exact decode_eq_instr_iff.2 ⟨decide_eq_true (offField cw).isLt, hop, rfl, hmode, offField_eq_ofNat cw⟩
  · rw [hexec, Lane.isEmpty, respond_flagWord_decide]

/-- Settles O30: each query answers a flag read off lanes that the answer leaves as they were. -/
theorem flagQueriesArePure : Obligations.FlagQueriesArePure := by
  rintro i s t (⟨dir, rfl⟩ | ⟨dir, off, rfl⟩ | ⟨dir, rfl⟩ | ⟨dir, off, rfl⟩) hst hft
  · exact exec_pure_of_onChannel (fun _ => rfl) (fun _ ls => .inr ⟨ls.aggFull, fun _ => rfl⟩) hst hft
  · exact exec_pure_of_onLane (f := Lane.isFull) (fun _ => rfl) hst hft
  · exact exec_pure_of_onChannel (fun _ => rfl) (fun _ ls => .inr ⟨ls.aggEmpty, fun _ => rfl⟩) hst hft
  · exact exec_pure_of_onLane (f := Lane.isEmpty) (fun _ => rfl) hst hft

/-- Settles O31: by their rules both sides say that each of the four lanes is full, or empty. -/
theorem aggregateQueryIsTheAndOfLaneQueries : Obligations.AggregateQueryIsTheAndOfLaneQueries := by
  intro dir s d hf hd hi
  obtain ⟨ls, hl⟩ := (State.initialized_iff s d).1 hi
  exact ⟨aggregate_answers_one_iff (p := fun L => L.full = true) (isfullAFollowsItsRule.2 dir)
      (isfullLFollowsItsRule.2 dir) hf hd hl,
    aggregate_answers_one_iff (p := fun L => L.q.length = 0) (isemptyAFollowsItsRule.2 dir)
      (isemptyLFollowsItsRule.2 dir) hf hd hl⟩

/-- Settles O32: the invariant ties the stored flag, which the query reads, to the length, which WRITE tests. -/
theorem isfullLForetellsARefusedWrite : Obligations.IsfullLForetellsARefusedWrite := by
  intro dir off w s d j hinv hf hd hlane hi
  obtain ⟨ls, hl⟩ := (State.initialized_iff s d).1 hi
  obtain ⟨-, hsound, -⟩ := (State.inv_iff s).1 hinv
  obtain ⟨-, hflag⟩ := Lane.sound_iff.1 ((Lanes.sound_iff _ ls).1 (hsound d ls hl) j)
  have ho : off = 4 * j.val := (laneOf_eq_some_iff off j).1 hlane
  rw [laneRule_live (isfullLFollowsItsRule.2 dir off) hf hd hl ho, answers_one_iff,
    exec_write_refused_iff hf hd hl ho, hflag, decide_eq_true_iff]

/-- Settles O33: the query and READ test the same length. -/
theorem isemptyLForetellsAFailedRead : Obligations.IsemptyLForetellsAFailedRead := by
  intro dir off s d j hf hd hlane hi
  obtain ⟨ls, hl⟩ := (State.initialized_iff s d).1 hi
  have ho : off = 4 * j.val := (laneOf_eq_some_iff off j).1 hlane
  rw [laneRule_live (isemptyLFollowsItsRule.2 dir off) hf hd hl ho, answers_one_iff,
    exec_read_failed_iff hf hd hl ho, List.length_eq_zero_iff]

end Sys2Proof.Claims
end

section
/-! The credit operations (rules R100 to R105): their words, the fatal errors their checks raise, the step each makes,
the count over any operations, and that no other operation writes or reads it. -/

namespace Sys2Proof.Machine

open Sys2Proof.Claims

variable {s t u : State} {d : Direction} {ls : Lanes} {dir : BitVec 2} {i : Instr} {n m : BitVec 4}

/-! ## The fatal errors of the checks of a credit operation (rule R117) -/

theorem onCredits_badDir (hf : s.fatal = false) (h : dir = 3) (run : BitVec 4 → Answer) :
    onCredits dir s run = .next (s.takeFatal .badDir) := by
  rw [onCredits, unlessLatched_clear hf, withDirection_badDir h]

/-- The directions 1 and 2 have no counter (rules R100, R115). -/
theorem onCredits_noCredit (hf : s.fatal = false) (h : dir = 1 ∨ dir = 2) (run : BitVec 4 → Answer) :
    onCredits dir s run = .next (s.takeFatal .noCredit) := by
  rw [onCredits, unlessLatched_clear hf]
  obtain rfl | rfl := h <;> rfl

theorem onCredits_uninit (hf : s.fatal = false) (h : dir = 0) (hi : s.initialized .h2rReq = false)
    (run : BitVec 4 → Answer) : onCredits dir s run = .next (s.takeFatal .uninit) := by
  have hd : directionOf dir = some .h2rReq := h ▸ rfl
  cases hn : s.credits with
  | uninitialised => simp [onCredits, unlessLatched_clear hf, withDirection, hd, withCreditCounter, withLiveCredits, hn]
  | live n => exact absurd ((State.credits_live_iff s).1 ⟨n, hn⟩) (by simp [hi])

/-- A credit operation raises its fatal errors in priority order, and else runs (rules R100, R112, R114). -/
theorem creditRule_of_onCredits {run : State → BitVec 4 → Answer} {body : State → BitVec 4 → Prop}
    (hexec : ∀ s, exec i s = onCredits dir s (run s))
    (hbody : ∀ s n, s.credits = .live n → exec i s = run s n → body s n) : creditRule i dir body := by
  refine fun s hf => ⟨fun h3 => ?_, fun h12 => ?_, fun h0 => ⟨fun hi => ?_, fun n hn => ?_⟩⟩
  · exact (hexec s).trans (onCredits_badDir hf h3 _)
  · exact (hexec s).trans (onCredits_noCredit hf h12 _)
  · exact (hexec s).trans (onCredits_uninit hf h0 hi _)
  · exact hbody s n hn ((hexec s).trans (onCredits_live hf (h0 ▸ rfl) hn _))

/-! ## The step of the count -/

/-- What an operation does that replaces the live count by `m` and answers `ok = 1` (rules R102, R103). -/
theorem exec_replaces_credits (hn : s.credits = .live n)
    (hexec : exec i s = .next ((s.withCredits m).respond true none)) :
    ∃ t, exec i s = .next t ∧ t.rsp = some ⟨false, true, none⟩ ∧ t.credits = .live m ∧ sameButCredits s t :=
  ⟨_, hexec, rfl, State.withCredits_credits s m hn, by simp [sameButCredits]⟩

/-- Below the ceiling the counter does not wrap on the way up (rule R102). -/
theorem toNat_credit_up (h : n.toNat < Config.maxCredits) : (BitVec.ofNat 4 (n.toNat + 1)).toNat = n.toNat + 1 := by
  have hlt : n.toNat < 15 := h
  rw [BitVec.toNat_ofNat, Nat.mod_eq_of_lt (by omega)]

/-- Above 0 the counter does not wrap on the way down (rule R103). -/
theorem toNat_credit_down (h : 0 < n.toNat) : (BitVec.ofNat 4 (n.toNat - 1)).toNat + 1 = n.toNat := by
  rw [BitVec.toNat_ofNat, Nat.mod_eq_of_lt (by omega)]
  omega

/-! ## What an operation can do to the credits -/

/-- What the operation `i` can do to the credits: nothing, and then it is no credit step or one that fails; or INIT's
effect, a step up or a step down, each by the one operation that has it (rules R81, R102, R103). -/
inductive CreditEffect (i : Instr) (s : State) : State → Prop where
  | kept {t : State} (hcredits : t.credits = s.credits)
      (hstep : (∃ r, t.rsp = some r ∧ r.ok = false) ∨ i ≠ .crinc 0 ∧ i ≠ .crdec 0) : CreditEffect i s t
  | init (hi : i = .init 0) : CreditEffect i s ((s.initChannel .h2rReq).respond true none)
  | up {n : BitVec 4} (hi : i = .crinc 0) (hn : s.credits = .live n) (hlt : n.toNat < Config.maxCredits) :
      CreditEffect i s ((s.withCredits (BitVec.ofNat 4 (n.toNat + 1))).respond true none)
  | down {n : BitVec 4} (hi : i = .crdec 0) (hn : s.credits = .live n) (hpos : 0 < n.toNat) :
      CreditEffect i s ((s.withCredits (BitVec.ofNat 4 (n.toNat - 1))).respond true none)

/-- The answer is a next state, and `i` can have done to the credits what it shows. -/
def HasCreditEffect (i : Instr) (s : State) (a : Answer) : Prop :=
  ∃ t, a = .next t ∧ CreditEffect i s t

theorem directionOf_eq_request_iff : directionOf dir = some .h2rReq ↔ dir = 0 := by
  revert dir; decide

theorem hasCreditEffect_answerLatched (i : Instr) (s : State) : HasCreditEffect i s (.next s.answerLatched) :=
  ⟨_, rfl, .kept rfl (.inl ⟨_, rfl, rfl⟩)⟩

theorem hasCreditEffect_takeFatal (i : Instr) (s : State) (c : Cause) :
    HasCreditEffect i s (.next (s.takeFatal c)) :=
  ⟨_, rfl, .kept rfl (.inl ⟨_, rfl, rfl⟩)⟩

/-- A response that is a failure, or that of an operation other than the two steps, to a state with the same credits. -/
theorem hasCreditEffect_respond (hcredits : t.credits = s.credits) {ok : Bool} {v : Option Word}
    (hstep : ok = false ∨ i ≠ .crinc 0 ∧ i ≠ .crdec 0) : HasCreditEffect i s (.next (t.respond ok v)) :=
  ⟨_, rfl, .kept hcredits (hstep.imp_left fun hok => ⟨_, rfl, hok⟩)⟩

theorem onCredits_hasCreditEffect {run : BitVec 4 → Answer}
    (hrun : ∀ n, dir = 0 → s.credits = .live n → HasCreditEffect i s (run n)) :
    HasCreditEffect i s (onCredits dir s run) := by
  obtain ⟨-, h⟩ | ⟨-, -, h⟩ | ⟨-, -, -, -, h⟩ | ⟨-, -, -, h⟩ | ⟨n, -, hd, hn, h⟩ := onCredits_cases dir s run <;> rw [h]
  · exact hasCreditEffect_answerLatched i s
  · exact hasCreditEffect_takeFatal i s _
  · exact hasCreditEffect_takeFatal i s _
  · exact hasCreditEffect_takeFatal i s _
  · exact hrun n (directionOf_eq_request_iff.1 hd) hn

theorem execInit_hasCreditEffect (dir : BitVec 2) (s : State) : HasCreditEffect (.init dir) s (execInit dir s) := by
  refine unlessLatched_induction (fun _ => hasCreditEffect_answerLatched _ s) fun _ => ?_
  obtain ⟨-, h⟩ | ⟨d, hd, h⟩ := withDirection_cases dir s fun d => .next ((s.initChannel d).respond true none) <;> rw [h]
  · exact hasCreditEffect_takeFatal _ s _
  by_cases hreq : d = .h2rReq
  · subst hreq
    obtain rfl := directionOf_eq_request_iff.1 hd
    exact ⟨_, rfl, .init rfl⟩
  · exact hasCreditEffect_respond (State.initChannel_credits_other s d hreq) (.inr ⟨nofun, nofun⟩)

/-- No operation does to the credits what `CreditEffect` does not list (rules R18, R105). -/
theorem exec_hasCreditEffect (i : Instr) (s : State) : HasCreditEffect i s (exec i s) := by
  have hlatched : ∀ {i}, s.fatal = true → HasCreditEffect i s (.next s.answerLatched) := fun _ =>
    hasCreditEffect_answerLatched _ s
  have hfatal : ∀ {i}, s.fatal = false → ∀ c, HasCreditEffect i s (.next (s.takeFatal c)) := fun _ =>
    hasCreditEffect_takeFatal _ s
  cases i with
  | nop => exact unlessLatched_induction hlatched fun _ => hasCreditEffect_respond rfl (.inr ⟨nofun, nofun⟩)
  | init dir => exact execInit_hasCreditEffect dir s
  | write | read =>
    exact onLane_induction hlatched hfatal _ _ fun _ _ _ _ => hasCreditEffect_respond (by simp) (.inr ⟨nofun, nofun⟩)
  | isfullA | isemptyA =>
    exact onChannel_induction hlatched hfatal _ fun _ _ _ => hasCreditEffect_respond rfl (.inr ⟨nofun, nofun⟩)
  | isfullL | isemptyL =>
    exact onLane_induction hlatched hfatal _ _ fun _ _ _ _ => hasCreditEffect_respond rfl (.inr ⟨nofun, nofun⟩)
  | getcr => exact onCredits_hasCreditEffect fun _ _ _ => hasCreditEffect_respond rfl (.inr ⟨nofun, nofun⟩)
  | crinc =>
    refine onCredits_hasCreditEffect fun n h0 hn => ?_
    split
    next hlt => exact ⟨_, rfl, .up (h0 ▸ rfl) hn hlt⟩
    next => exact hasCreditEffect_respond rfl (.inl rfl)
  | crdec =>
    refine onCredits_hasCreditEffect fun n h0 hn => ?_
    split
    next hpos => exact ⟨_, rfl, .down (h0 ▸ rfl) hn hpos⟩
    next => exact hasCreditEffect_respond rfl (.inl rfl)

/-! ## The count over a sequence of operations (rule R104) -/

/-- Over the operations `is` from `s` the request channel stays live and its count rises by the successful CRINC and
falls by the successful CRDEC. -/
def CountsCredits (is : List Instr) (s : State) : Prop :=
  ∀ n, s.credits = .live n → ∃ m, (afterAll is s).credits = .live m ∧
    m.toNat + okCount (fun i => decide (i = .crdec 0)) is s = n.toNat + okCount (fun i => decide (i = .crinc 0)) is s

theorem okCount_cons (p : Instr → Bool) (i : Instr) (is : List Instr) (s : State) :
    okCount p (i :: is) s = okCount p [i] s + okCount p is (after i s) := by
  simp [okCount]

theorem CountsCredits.cons {is : List Instr} (hi : CountsCredits [i] s) (his : CountsCredits is (after i s)) :
    CountsCredits (i :: is) s := by
  intro n hn
  obtain ⟨m, hm, hone⟩ := hi n hn
  obtain ⟨k, hk, hrest⟩ := his m hm
  refine ⟨k, hk, ?_⟩
  rw [okCount_cons _ i is, okCount_cons _ i is]
  omega

/-- One operation other than INIT of the request channel: a step that succeeds is counted, anything else leaves the
count. -/
theorem exec_countsCredits (s : State) (hinit : i.isInit = true → channelNamed i ≠ some .h2rReq) :
    CountsCredits [i] s := by
  intro n hn
  obtain ⟨t, hexec, heff⟩ := exec_hasCreditEffect i s
  have hafter : after i s = t := after_of_exec hexec
  simp only [afterAll, List.foldl, okCount, succeeds, hafter]
  cases heff with
  | kept hcredits hstep =>
    refine ⟨n, hcredits.trans hn, ?_⟩
    obtain ⟨r, hrsp, hok⟩ | ⟨hinc, hdec⟩ := hstep
    · simp [hrsp, hok]
    · rw [decide_eq_false hinc, decide_eq_false hdec]
  | init hi =>
    subst hi
    exact absurd rfl (hinit rfl)
  | @up k hi hk hlt =>
    obtain rfl : k = n := Lifecycle.live.inj (hk.symm.trans hn)
    exact ⟨_, State.withCredits_credits s _ hk, by simpa [hi] using toNat_credit_up hlt⟩
  | @down k hi hk hpos =>
    obtain rfl : k = n := Lifecycle.live.inj (hk.symm.trans hn)
    exact ⟨_, State.withCredits_credits s _ hk, by simpa [hi] using toNat_credit_down hpos⟩

theorem afterAll_countsCredits (is : List Instr) (s : State)
    (hinit : ∀ i ∈ is, i.isInit = true → channelNamed i ≠ some .h2rReq) : CountsCredits is s := by
  induction is generalizing s with
  | nil => exact fun n hn => ⟨n, hn, rfl⟩
  | cons i is ih =>
    obtain ⟨hi, his⟩ := List.forall_mem_cons.1 hinit
    exact (exec_countsCredits s hi).cons (ih (after i s) his)

/-! ## Two runs that differ in the credits (rule R105) -/

/-- Both answers are next states that give the same response and differ in the credits at most. -/
def AnswerAlike (a b : Answer) : Prop :=
  ∃ t u, a = .next t ∧ b = .next u ∧ u.rsp = t.rsp ∧ sameButCredits t u

section
variable (h : sameButCredits s u)
include h

theorem sameButCredits_withLanes {ls₀ : Lanes} (hl : s.lanes d = .live ls₀) (ls : Lanes) :
    sameButCredits (s.withLanes d ls) (u.withLanes d ls) := by
  obtain ⟨hlanes, hframe⟩ := h
  refine ⟨fun e => ?_, by simpa using hframe⟩
  by_cases he : e = d
  · subst he
    rw [State.withLanes_lanes_self u e ls ((hlanes e).trans hl), State.withLanes_lanes_self s e ls hl]
  · rw [State.withLanes_lanes_other u d e ls he, State.withLanes_lanes_other s d e ls he, hlanes]

theorem sameButCredits_initChannel (d : Direction) : sameButCredits (s.initChannel d) (u.initChannel d) := by
  obtain ⟨hlanes, hframe⟩ := h
  refine ⟨fun e => ?_, by simpa using hframe⟩
  by_cases he : e = d
  · subst he
    rw [State.initChannel_lanes_self, State.initChannel_lanes_self]
  · rw [State.initChannel_lanes_other u d e he, State.initChannel_lanes_other s d e he, hlanes]

theorem respond_alike (ok : Bool) (v : Option Word) :
    AnswerAlike (.next (s.respond ok v)) (.next (u.respond ok v)) :=
  ⟨_, _, rfl, rfl, rfl, by simpa [sameButCredits] using h⟩

theorem answerLatched_alike : AnswerAlike (.next s.answerLatched) (.next u.answerLatched) :=
  ⟨_, _, rfl, rfl, rfl, by simpa [sameButCredits] using h⟩

theorem takeFatal_alike (c : Cause) : AnswerAlike (.next (s.takeFatal c)) (.next (u.takeFatal c)) := by
  obtain ⟨hlanes, -, -, hframe⟩ := h
  exact ⟨_, _, rfl, rfl, rfl, by simpa using hlanes, rfl, rfl, hframe⟩

theorem unlessLatched_alike {a b : Answer} (hrun : AnswerAlike a b) :
    AnswerAlike (unlessLatched s a) (unlessLatched u b) := by
  have ⟨_, hfatal, _⟩ := h
  cases hf : s.fatal with
  | true =>
    rw [unlessLatched_set hf, unlessLatched_set (hfatal.trans hf)]
    exact answerLatched_alike h
  | false => rwa [unlessLatched_clear hf, unlessLatched_clear (hfatal.trans hf)]

theorem withDirection_alike (dir : BitVec 2) {run run' : Direction → Answer}
    (hrun : ∀ d, AnswerAlike (run d) (run' d)) : AnswerAlike (withDirection dir s run) (withDirection dir u run') := by
  unfold withDirection
  split
  · exact takeFatal_alike h _
  · exact hrun _

theorem onChannel_alike (dir : BitVec 2) {run run' : Direction → Lanes → Answer}
    (hrun : ∀ d ls, s.lanes d = .live ls → AnswerAlike (run d ls) (run' d ls)) :
    AnswerAlike (onChannel dir s run) (onChannel dir u run') := by
  have ⟨hlanes, _⟩ := h
  refine unlessLatched_alike h (withDirection_alike h dir fun d => ?_)
  simp only [withLive, hlanes d]
  split
  · exact takeFatal_alike h _
  next hl => exact hrun d _ hl

theorem onLane_alike (dir : BitVec 2) (off : Nat) {run run' : Direction → Lanes → Fin 4 → Answer}
    (hrun : ∀ d ls j, s.lanes d = .live ls → AnswerAlike (run d ls j) (run' d ls j)) :
    AnswerAlike (onLane dir off s run) (onLane dir off u run') := by
  refine onChannel_alike h dir fun d ls hl => ?_
  unfold withLane
  split
  · exact takeFatal_alike h _
  · exact hrun d ls _ hl

/-- The credits decide nothing that an operation other than the three credit operations does (rule R105). -/
theorem exec_alike (hi : i.isCredit = false) : AnswerAlike (exec i s) (exec i u) := by
  have ⟨_, _, _, hC, _⟩ := h
  cases i with
  | nop => exact unlessLatched_alike h (respond_alike h _ _)
  | init dir =>
    exact unlessLatched_alike h (withDirection_alike h dir fun d =>
      respond_alike (sameButCredits_initChannel h d) _ _)
  | write dir off | read dir off =>
    refine onLane_alike h dir off fun d ls j hl => ?_
    rw [hC]
    exact respond_alike (sameButCredits_withLanes h hl _) _ _
  | isfullA dir | isemptyA dir => exact onChannel_alike h dir fun _ _ _ => respond_alike h _ _
  | isfullL dir off | isemptyL dir off => exact onLane_alike h dir off fun _ _ _ _ => respond_alike h _ _
  | getcr | crinc | crdec => cases hi

end

end Sys2Proof.Machine

namespace Sys2Proof.Claims

open Sys2Proof.Machine

/-- Settles O38: INIT leaves 15 credits, from which every operation counts. -/
theorem creditsCountTheSuccessfulSteps : Obligations.CreditsCountTheSuccessfulSteps := by
  intro s is hf hinit
  have hafter : after (.init 0) s = _ := after_of_exec (exec_init (d := .h2rReq) hf rfl)
  exact afterAll_countsCredits is _ hinit 15 (hafter ▸ State.initChannel_credits_request s)

/-- Settles O39: what an operation that changes the credits can be, effect by effect. -/
theorem onlyThreeOperationsChangeTheCredits : Obligations.OnlyThreeOperationsChangeTheCredits := by
  intro i s t hexec hne
  obtain ⟨u, hu, heff⟩ := exec_hasCreditEffect i s
  obtain rfl : u = t := Host.Outcome.next.inj (hu.symm.trans hexec)
  cases heff with
  | kept hcredits => exact absurd hcredits hne
  | init hi => exact .inl hi
  | up hi => exact .inr (.inl hi)
  | down hi => exact .inr (.inr hi)

/-- Settles O40: the two runs start from states that differ in the credits at most. -/
theorem otherOperationsDoNotReadTheCredits : Obligations.OtherOperationsDoNotReadTheCredits := by
  intro i s t n m hi _ hexec
  have hstart : sameButCredits s (s.withCredits m) := by simp [sameButCredits]
  obtain ⟨t', u, ht', hu, hrsp, hlanes, hfatal, hcause, -⟩ := exec_alike hstart hi
  obtain rfl : t' = t := Host.Outcome.next.inj (ht'.symm.trans hexec)
  exact ⟨u, hu, hrsp, hlanes, hfatal, hcause⟩

/-- Settles O34: behind the checks the answer is the count, zero-extended. -/
theorem getcrFollowsItsRule : Obligations.GetcrFollowsItsRule := by
  refine ⟨fun cw hrow => ?_, fun dir => creditRule_of_onCredits (fun _ => rfl) fun s n _ hexec => ?_⟩
  · exact decode_eq_instr_iff.2 ⟨rfl, opField_of_opcodeRow (.getcr 0) hrow, rfl⟩
  · rw [hexec, creditWord, ← BitVec.ofNat_toNat]
    rfl

/-- Settles O35: behind the checks the guard decides between the step up and the refusal at 15. -/
theorem crincFollowsItsRule : Obligations.CrincFollowsItsRule := by
  refine ⟨fun cw hrow => ?_, fun dir => creditRule_of_onCredits (fun _ => rfl) fun s n hn hexec =>
    ⟨fun hlt => ?_, fun h15 => ?_⟩⟩
  · exact decode_eq_instr_iff.2 ⟨rfl, opField_of_opcodeRow (.crinc 0) hrow, rfl⟩
  · have hguard : n.toNat < Config.maxCredits := hlt
    rw [if_pos hguard] at hexec
    obtain ⟨t, ht, hrsp, hm, hsame⟩ := exec_replaces_credits hn hexec
    exact ⟨t, _, ht, hrsp, hm, toNat_credit_up hguard, hsame⟩
  · have hguard : ¬ n.toNat < Config.maxCredits := h15.not_lt
    rw [if_neg hguard] at hexec
    exact hexec

/-- Settles O36: behind the checks the guard decides between the step down and the refusal at 0. -/
theorem crdecFollowsItsRule : Obligations.CrdecFollowsItsRule := by
  refine ⟨fun cw hrow => ?_, fun dir => creditRule_of_onCredits (fun _ => rfl) fun s n hn hexec =>
    ⟨fun hpos => ?_, fun hzero => ?_⟩⟩
  · exact decode_eq_instr_iff.2 ⟨rfl, opField_of_opcodeRow (.crdec 0) hrow, rfl⟩
  · rw [if_pos hpos] at hexec
    obtain ⟨t, ht, hrsp, hm, hsame⟩ := exec_replaces_credits hn hexec
    exact ⟨t, _, ht, hrsp, hm, toNat_credit_down hpos, hsame⟩
  · rw [if_neg (by omega)] at hexec
    exact hexec

end Sys2Proof.Claims
end

section
/-! Fatal usage errors and recoverable failures (rules R110 to R121): which fatal error an operation raises, what taking
one changes and what the latch then does, and the four ways to fail without one. -/

namespace Sys2Proof

/-- The operations with an offset operand (rule R53). -/
theorem Instr.exists_eq_of_off? {i : Instr} {off : Nat} (h : i.off? = some off) :
    ∃ dir, i.dir? = some dir ∧
      ((∃ w, i = .write dir off w) ∨ i = .read dir off ∨ i = .isfullL dir off ∨ i = .isemptyL dir off) := by
  cases i with
  | write dir _ w => cases h; exact ⟨dir, rfl, .inl ⟨w, rfl⟩⟩
  | read dir => cases h; exact ⟨dir, rfl, .inr (.inl rfl)⟩
  | isfullL dir => cases h; exact ⟨dir, rfl, .inr (.inr (.inl rfl))⟩
  | isemptyL dir => cases h; exact ⟨dir, rfl, .inr (.inr (.inr rfl))⟩
  | nop | init | isfullA | isemptyA | getcr | crinc | crdec => cases h

/-- The credit operations (rule R100). -/
theorem Instr.eq_of_isCredit {i : Instr} {dir : BitVec 2} (h : i.isCredit = true) (hdir : i.dir? = some dir) :
    i = .getcr dir ∨ i = .crinc dir ∨ i = .crdec dir := by
  cases i with
  | getcr => cases hdir; exact .inl rfl
  | crinc => cases hdir; exact .inr (.inl rfl)
  | crdec => cases hdir; exact .inr (.inr rfl)
  | nop | init | write | read | isfullA | isfullL | isemptyA | isemptyL => cases h

end Sys2Proof

namespace Sys2Proof.Machine

open Sys2Proof.Claims

variable {s t : State} {d : Direction} {dir : BitVec 2} {off : Nat} {i : Instr} {c : Cause} {n : BitVec 4}

/-! ## Which fatal error an operation raises -/

/-- The conditions under which the operation `i` raises a fatal error under a clear latch, one constructor per cause, each
with what the rule of the cause asks for (rules R112 to R115). At most one applies (rule R117). -/
inductive FatalError (i : Instr) (s : State) : Cause → Prop where
  | badDir (hdir : i.dir? = some 3) : FatalError i s .badDir
  | noCredit {dir : BitVec 2} (hdir : i.dir? = some dir) (hcr : i.isCredit = true) (h12 : dir = 1 ∨ dir = 2) :
      FatalError i s .noCredit
  | uninit {d : Direction} (hd : channelNamed i = some d) (hi : i.isInit = false)
      (hcr : i.isCredit = true → d = .h2rReq) (hl : s.initialized d = false) : FatalError i s .uninit
  | badOffset {d : Direction} {off : Nat} (hd : channelNamed i = some d) (hl : s.initialized d = true)
      (hoff : i.off? = some off) (hbad : off ∉ [0x0, 0x4, 0x8, 0xc]) : FatalError i s .badOffset

/-- Where the directory names no lane the offset is none of the four (rule R31). -/
theorem not_mem_offsets_of_laneOf (h : laneOf off = none) : off ∉ [0x0, 0x4, 0x8, 0xc] := by
  have hvalid : ∀ o ∈ [0x0, 0x4, 0x8, 0xc], laneOf o ≠ none := by decide
  exact fun hmem => hvalid off hmem h

/-- The directions without a credit counter (rule R100). -/
theorem eq_one_or_two_of_directionOf (hd : directionOf dir = some d) (hne : d ≠ .h2rReq) : dir = 1 ∨ dir = 2 := by
  revert hne hd
  cases d <;> revert dir <;> decide

/-- The checks in the order of rule R117: a check is reached only where those before it let the operation through. -/
theorem fatalError_of_expectedCause (h : expectedCause i s = some c) : FatalError i s c := by
  cases hdir : i.dir? with
  | none => simp [expectedCause, hdir] at h
  | some dir =>
    cases hd : directionOf dir with
    | none =>
      obtain rfl : Cause.badDir = c := by simpa [expectedCause, hdir, hd] using h
      exact .badDir (hdir.trans (congrArg some ((directionOf_eq_none_iff dir).1 hd)))
    | some d =>
      have hnamed : channelNamed i = some d := (channelNamed_eq hdir).trans hd
      simp only [expectedCause, hdir, hd, ite_eq_iff] at h
      obtain ⟨⟨hcr, hne⟩, h⟩ | ⟨hcredit, h⟩ := h
      · cases h
        exact .noCredit hdir hcr (eq_one_or_two_of_directionOf hd hne)
      obtain ⟨⟨hi, hl⟩, h⟩ | ⟨hlive, h⟩ := h
      · cases h
        exact .uninit hnamed hi (fun hcr => by simpa [hcr] using hcredit) hl
      · cases hoff : i.off? with
        | none => simp [hoff] at h
        | some off =>
          simp only [hoff, ite_eq_iff] at h
          obtain ⟨ho, h⟩ | ⟨-, h⟩ := h
          · cases h
            have hi : i.isInit = false := by
              obtain ⟨_, -, ⟨_, rfl⟩ | rfl | rfl | rfl⟩ := Instr.exists_eq_of_off? hoff <;> rfl
            exact .badOffset hnamed (by simpa [hi] using hlive) hoff (not_mem_offsets_of_laneOf ho)
          · cases h

/-! An operation that follows its rule raises the error whose condition holds. -/

section
variable (hdir : i.dir? = some dir) (hf : s.fatal = false) (herr : FatalError i s c)
include hdir hf herr

/-- Behind the checks of the channel only an offset is left to raise an error, as `hoff` says. -/
theorem exec_of_fatalError_of_channelRule {body : State → Direction → Lanes → Prop} (hrule : channelRule i dir body)
    (hcr : i.isCredit = false)
    (hoff : ∀ d ls off, i.off? = some off → off ∉ [0x0, 0x4, 0x8, 0xc] → body s d ls →
      exec i s = .next (fatallyEntered s .badOffset)) : exec i s = .next (fatallyEntered s c) := by
  obtain ⟨hbadDir, hnamed⟩ := hrule s hf
  cases herr with
  | badDir h3 => exact hbadDir (Option.some.inj (hdir.symm.trans h3))
  | noCredit _ h => simp [hcr] at h
  | uninit hd _ _ hl => exact (hnamed _ ((channelNamed_eq hdir).symm.trans hd)).1 ((State.not_initialized_iff s _).1 hl)
  | badOffset hd hl ho hbad =>
    obtain ⟨ls, hl⟩ := (State.initialized_iff s _).1 hl
    exact hoff _ ls _ ho hbad ((hnamed _ ((channelNamed_eq hdir).symm.trans hd)).2 ls hl)

theorem exec_of_fatalError_of_laneRule {body : State → Direction → Lanes → Fin 4 → Prop}
    (hrule : laneRule i dir off body) (hcr : i.isCredit = false) (hoff : i.off? = some off) :
    exec i s = .next (fatallyEntered s c) := by
  refine exec_of_fatalError_of_channelRule hdir hf herr hrule hcr fun d ls o ho hbad hbody => ?_
  obtain rfl : off = o := Option.some.inj (hoff.symm.trans ho)
  exact hbody.1 hbad

theorem exec_of_fatalError_of_creditRule {body : State → BitVec 4 → Prop} (hrule : creditRule i dir body)
    (hcr : i.isCredit = true) (hoff : i.off? = none) : exec i s = .next (fatallyEntered s c) := by
  obtain ⟨hbadDir, hnoCredit, hrequest⟩ := hrule s hf
  cases herr with
  | badDir h3 => exact hbadDir (Option.some.inj (hdir.symm.trans h3))
  | noCredit h _ h12 => exact hnoCredit (Option.some.inj (hdir.symm.trans h) ▸ h12)
  | uninit hd _ hreq hl =>
    obtain rfl := hreq hcr
    exact (hrequest (directionOf_eq_request_iff.1 ((channelNamed_eq hdir).symm.trans hd))).1 hl
  | badOffset _ _ h => simp [hoff] at h

end

/-- An operation whose condition for a cause holds takes the fatal error of that cause and does nothing else (rule
R118). -/
theorem exec_of_fatalError (hf : s.fatal = false) (herr : FatalError i s c) :
    exec i s = .next (fatallyEntered s c) := by
  cases i with
  | nop => cases herr <;> contradiction
  | init dir =>
    cases herr with
    | badDir h3 => exact exec_init_badDir hf (Option.some.inj h3)
    | noCredit _ h | uninit _ h | badOffset _ _ h => cases h
  | write dir off w => exact exec_of_fatalError_of_laneRule rfl hf herr (writeFollowsItsRule.2 dir off w) rfl rfl
  | read dir off => exact exec_of_fatalError_of_laneRule rfl hf herr (readFollowsItsRule.2 dir off) rfl rfl
  | isfullA dir => exact exec_of_fatalError_of_channelRule rfl hf herr (isfullAFollowsItsRule.2 dir) rfl nofun
  | isfullL dir off => exact exec_of_fatalError_of_laneRule rfl hf herr (isfullLFollowsItsRule.2 dir off) rfl rfl
  | isemptyA dir => exact exec_of_fatalError_of_channelRule rfl hf herr (isemptyAFollowsItsRule.2 dir) rfl nofun
  | isemptyL dir off => exact exec_of_fatalError_of_laneRule rfl hf herr (isemptyLFollowsItsRule.2 dir off) rfl rfl
  | getcr dir => exact exec_of_fatalError_of_creditRule rfl hf herr (getcrFollowsItsRule.2 dir) rfl rfl
  | crinc dir => exact exec_of_fatalError_of_creditRule rfl hf herr (crincFollowsItsRule.2 dir) rfl rfl
  | crdec dir => exact exec_of_fatalError_of_creditRule rfl hf herr (crdecFollowsItsRule.2 dir) rfl rfl

/-- An operation to which no cause applies leaves the latch and the cause as they were (rule R117). -/
theorem exec_of_expectedCause_none (hf : s.fatal = false) (h : expectedCause i s = none) :
    ∃ t, exec i s = .next t ∧ t.fatal = false ∧ t.cause = s.cause := by
  obtain ⟨x, ok, v, -, hexec⟩ := exec_actsLocally i h
  exact ⟨_, hexec s hf rfl fun p _ => SameAt.refl p s, by simp [hf], by simp⟩

/-- An operation raises a fatal error exactly under its cause's condition. -/
theorem exec_eq_fatallyEntered_iff (hf : s.fatal = false) :
    exec i s = .next (fatallyEntered s c) ↔ FatalError i s c := by
  refine ⟨fun hexec => ?_, exec_of_fatalError hf⟩
  cases hcause : expectedCause i s with
  | none =>
    obtain ⟨t, ht, hft, -⟩ := exec_of_expectedCause_none hf hcause
    obtain rfl : t = fatallyEntered s c := Host.Outcome.next.inj (ht.symm.trans hexec)
    cases hft
  | some c' =>
    have herr := fatalError_of_expectedCause hcause
    have hsame := Host.Outcome.next.inj ((exec_of_fatalError hf herr).symm.trans hexec)
    obtain rfl : c' = c := congrArg State.cause hsame
    exact herr

/-! ## The latch -/

/-- The latch is set by fatal entry alone (rule R118). -/
theorem CommandEffect.eq_takeFatal (h : CommandEffect s t) (hf : s.fatal = false) (ht : t.fatal = true) :
    ∃ c, c ≠ .none ∧ t = s.takeFatal c := by
  cases h with
  | fatalEntry c _ hc => exact ⟨c, hc, rfl⟩
  | latched | answer | init | push | pop | creditUp | creditDown => simp [hf] at ht

/-- With the latch set a command has no effect but its answer (rules R118, R120). -/
theorem CommandEffect.eq_answerLatched (h : CommandEffect s t) (hf : s.fatal = true) : t = s.answerLatched := by
  cases h with
  | latched => rfl
  | fatalEntry _ hf' | answer _ _ hf' | init _ hf' | push _ _ _ _ hf' | pop _ _ _ _ _ hf' | creditUp _ hf'
  | creditDown _ hf' => simp [hf] at hf'

/-! ## Recoverable failures (rule R121) -/

/-- What is answered `ok = 0` without a fatal error is nothing but a response: the effects on the channels succeed. -/
theorem CommandEffect.eq_respond (h : CommandEffect s t) (ht : t.fatal = false) {r : Response} (hrsp : t.rsp = some r)
    (hok : r.ok = false) : t = s.respond false r.value := by
  cases h with
  | latched hf => simp [hf] at ht
  | fatalEntry => cases ht
  | answer => cases hrsp; cases hok; rfl
  | init | push | pop | creditUp | creditDown => cases hrsp; cases hok

/-- A failure carries no value, so the answer to it is `(0, 0, no value)` (rules R56, R121). -/
theorem eq_answered_false_of_not_ok (hexec : exec i s = .next t) (ht : t.fatal = false) {r : Response}
    (hrsp : t.rsp = some r) (hok : r.ok = false) : t = answered s false none := by
  obtain ⟨u, r', hu, hr', -, -, hvalue⟩ := exec_hasResponse i s
  obtain rfl : u = t := Host.Outcome.next.inj (hu.symm.trans hexec)
  obtain rfl : r' = r := Option.some.inj (hr'.symm.trans hrsp)
  have hnone : r'.value = none := by simpa [hok] using hvalue
  exact hnone ▸ (exec_commandEffect hexec).eq_respond ht hrsp hok

/-- The four ways an operation can fail without a fatal error, by what it tests (rules R82, R83, R102, R103). -/
inductive RecoverableFailure (s : State) : Instr → Prop where
  | writeFull {dir off d j ls} (w : Word) (hd : directionOf dir = some d) (ho : laneOf off = some j)
      (hl : s.lanes d = .live ls) (hfull : (ls.get j).q.length = s.capacity) : RecoverableFailure s (.write dir off w)
  | readEmpty {dir off d j ls} (hd : directionOf dir = some d) (ho : laneOf off = some j)
      (hl : s.lanes d = .live ls) (hempty : (ls.get j).q = []) : RecoverableFailure s (.read dir off)
  | crincAtCeiling (hn : s.credits = .live 15) : RecoverableFailure s (.crinc 0)
  | crdecAtZero (hn : s.credits = .live 0) : RecoverableFailure s (.crdec 0)

/-- The answer is not that of a recoverable failure. -/
def NotFailure (s : State) (a : Answer) : Prop :=
  a ≠ .next (answered s false none)

theorem notFailure_of_rsp (h : t.rsp ≠ some ⟨false, false, none⟩) : NotFailure s (.next t) :=
  fun ht => h (congrArg State.rsp (Host.Outcome.next.inj ht))

/-- CRINC is refused at 15 only (rule R102). -/
theorem exec_crinc_refused_iff (hf : s.fatal = false) (hn : s.credits = .live n) :
    exec (.crinc 0) s = .next (answered s false none) ↔ n = 15 := by
  obtain ⟨-, -, hrequest⟩ := crincFollowsItsRule.2 0 s hf
  obtain ⟨hstep, hrefused⟩ := (hrequest rfl).2 n hn
  refine ⟨fun hexec => ?_, fun h => hrefused (h ▸ rfl)⟩
  by_contra hne
  obtain ⟨t, m, ht, hrsp, -⟩ := hstep (by bv_omega)
  exact notFailure_of_rsp (hrsp ▸ nofun) (ht.symm.trans hexec)

/-- CRDEC is refused at 0 only (rule R103). -/
theorem exec_crdec_refused_iff (hf : s.fatal = false) (hn : s.credits = .live n) :
    exec (.crdec 0) s = .next (answered s false none) ↔ n = 0 := by
  obtain ⟨-, -, hrequest⟩ := crdecFollowsItsRule.2 0 s hf
  obtain ⟨hstep, hrefused⟩ := (hrequest rfl).2 n hn
  refine ⟨fun hexec => ?_, fun h => hrefused (h ▸ rfl)⟩
  by_contra hne
  obtain ⟨t, m, ht, hrsp, -⟩ := hstep (by bv_omega)
  exact notFailure_of_rsp (hrsp ▸ nofun) (ht.symm.trans hexec)

theorem RecoverableFailure.exec_eq (h : RecoverableFailure s i) (hf : s.fatal = false) :
    exec i s = .next (answered s false none) := by
  cases h with
  | writeFull w hd ho hl hfull => exact (exec_write_refused_iff hf hd hl ((laneOf_eq_some_iff _ _).1 ho) w).2 hfull
  | readEmpty hd ho hl hempty => exact (exec_read_failed_iff hf hd hl ((laneOf_eq_some_iff _ _).1 ho)).2 hempty
  | crincAtCeiling hn => exact (exec_crinc_refused_iff hf hn).2 rfl
  | crdecAtZero hn => exact (exec_crdec_refused_iff hf hn).2 rfl

/-- A lane operation to which no cause applies names a lane of a live channel. -/
theorem exists_lane_of_expectedCause_none (hcause : expectedCause i s = none) (hdir : i.dir? = some dir)
    (hoff : i.off? = some off) (hi : i.isInit = false) :
    ∃ d ls j, directionOf dir = some d ∧ laneOf off = some j ∧ s.lanes d = .live ls := by
  obtain ⟨d, hd, -, hlive, hlane⟩ := checks_of_expectedCause_none hdir hcause
  obtain ⟨ls, hl⟩ := hlive hi
  obtain ⟨j, ho⟩ := hlane off hoff
  exact ⟨d, ls, j, hd, ho, hl⟩

/-- A credit operation to which no cause applies names the live request channel. -/
theorem exists_credits_of_expectedCause_none (hcause : expectedCause i s = none) (hdir : i.dir? = some dir)
    (hcr : i.isCredit = true) (hi : i.isInit = false) : dir = 0 ∧ ∃ n, s.credits = .live n := by
  obtain ⟨d, hd, hreq, hlive, -⟩ := checks_of_expectedCause_none hdir hcause
  obtain rfl : d = .h2rReq := hreq hcr
  exact ⟨directionOf_eq_request_iff.1 hd, (State.credits_live_iff s).2 ((State.initialized_iff s _).2 (hlive hi))⟩

/-- No other operation fails without a fatal error, and these four only under the conditions listed (rule R121). -/
theorem recoverableFailure_of_exec (hf : s.fatal = false) (hexec : exec i s = .next (answered s false none)) :
    RecoverableFailure s i := by
  have hlatched : s.fatal = true → NotFailure s (.next s.answerLatched) := fun _ => notFailure_of_rsp nofun
  have hfatal : s.fatal = false → ∀ c, NotFailure s (.next (s.takeFatal c)) := fun _ _ => notFailure_of_rsp nofun
  have hok : ∀ t v, NotFailure s (.next (State.respond t true v)) := fun _ _ => notFailure_of_rsp nofun
  have hcause : expectedCause i s = none := by
    by_contra hsome
    obtain ⟨c, hc⟩ := Option.ne_none_iff_exists'.1 hsome
    exact hfatal hf c ((exec_of_fatalError hf (fatalError_of_expectedCause hc)).symm.trans hexec)
  cases i with
  | write dir off w =>
    obtain ⟨d, ls, j, hd, ho, hl⟩ := exists_lane_of_expectedCause_none hcause rfl rfl rfl
    exact .writeFull w hd ho hl ((exec_write_refused_iff hf hd hl ((laneOf_eq_some_iff _ _).1 ho) w).1 hexec)
  | read dir off =>
    obtain ⟨d, ls, j, hd, ho, hl⟩ := exists_lane_of_expectedCause_none hcause rfl rfl rfl
    exact .readEmpty hd ho hl ((exec_read_failed_iff hf hd hl ((laneOf_eq_some_iff _ _).1 ho)).1 hexec)
  | crinc dir =>
    obtain ⟨rfl, n, hn⟩ := exists_credits_of_expectedCause_none hcause rfl rfl rfl
    exact .crincAtCeiling (hn.trans (congrArg _ ((exec_crinc_refused_iff hf hn).1 hexec)))
  | crdec dir =>
    obtain ⟨rfl, n, hn⟩ := exists_credits_of_expectedCause_none hcause rfl rfl rfl
    exact .crdecAtZero (hn.trans (congrArg _ ((exec_crdec_refused_iff hf hn).1 hexec)))
  | nop => exact absurd hexec (unlessLatched_induction hlatched fun _ => hok _ _)
  | init dir => exact absurd hexec (execInit_induction hlatched hfatal dir fun _ _ => hok _ _)
  | isfullA dir | isemptyA dir => exact absurd hexec (onChannel_induction hlatched hfatal dir fun _ _ _ => hok _ _)
  | isfullL dir off | isemptyL dir off =>
    exact absurd hexec (onLane_induction hlatched hfatal dir off fun _ _ _ _ => hok _ _)
  | getcr dir => exact absurd hexec (onCredits_induction hlatched hfatal dir fun _ _ => hok _ _)

/-- In a sound state the stored flag of a live lane says whether it is at the capacity (rules R13, R27). -/
theorem State.Inv.full_iff (h : s.Inv) {ls : Lanes} (hl : s.lanes d = .live ls) (j : Fin 4) :
    (ls.get j).full = true ↔ (ls.get j).q.length = s.capacity := by
  obtain ⟨-, hsound, -⟩ := (State.inv_iff s).1 h
  obtain ⟨-, hflag⟩ := Lane.sound_iff.1 ((Lanes.sound_iff _ ls).1 (hsound d ls hl) j)
  rw [hflag, decide_eq_true_iff]

end Sys2Proof.Machine

namespace Sys2Proof.Claims

open Sys2Proof.Machine

/-- Settles O41: the first condition in the priority order is that of the one error that can be raised. -/
theorem fatalCauseFollowsThePriority : Obligations.FatalCauseFollowsThePriority := fun _ _ hf =>
  ⟨fun _ hc => exec_of_fatalError hf (fatalError_of_expectedCause hc), exec_of_expectedCause_none hf⟩

/-- Settles O37: the condition of NO_CREDIT, whose operations are the credit operations. -/
theorem creditOperationsAreGatedByDirection : Obligations.CreditOperationsAreGatedByDirection := by
  refine ⟨rfl, fun i s hf => (exec_eq_fatallyEntered_iff hf).trans ⟨fun herr => ?_, ?_⟩⟩
  · cases herr with
    | noCredit hdir hcr h12 => exact ⟨_, h12, Instr.eq_of_isCredit hcr hdir⟩
  · rintro ⟨dir, h12, rfl | rfl | rfl⟩ <;> exact .noCredit rfl rfl h12

/-- Settles O42: the condition of UNINIT, as it stands. -/
theorem uninitIsRaisedExactly : Obligations.UninitIsRaisedExactly := by
  refine ⟨rfl, fun i s hf => (exec_eq_fatallyEntered_iff hf).trans ⟨fun herr => ?_, ?_⟩⟩
  · cases herr with
    | uninit hd hi hcr hl => exact ⟨_, hd, hi, hcr, hl⟩
  · rintro ⟨d, hd, hi, hcr, hl⟩
    exact .uninit hd hi hcr hl

/-- Settles O43: the condition of BAD_OFFSET, whose operations are the four with an offset. -/
theorem badOffsetIsRaisedExactly : Obligations.BadOffsetIsRaisedExactly := by
  refine ⟨rfl, fun i s hf => (exec_eq_fatallyEntered_iff hf).trans ⟨fun herr => ?_, ?_⟩⟩
  · cases herr with
    | badOffset hd hl hoff hbad =>
      obtain ⟨dir, hdir, hi⟩ := Instr.exists_eq_of_off? hoff
      exact ⟨dir, _, _, (channelNamed_eq hdir).symm.trans hd, hl, hbad, hi⟩
  · rintro ⟨dir, d, off, hd, hl, hbad, ⟨_, rfl⟩ | rfl | rfl | rfl⟩ <;> exact .badOffset hd hl rfl hbad

/-- Settles O44: the condition of BAD_DIR, as it stands. -/
theorem badDirIsRaisedExactly : Obligations.BadDirIsRaisedExactly := by
  refine ⟨rfl, fun i s hf => (exec_eq_fatallyEntered_iff hf).trans ⟨fun herr => ?_, .badDir⟩⟩
  cases herr with
  | badDir hdir => exact hdir

/-- Settles O46: what a command can do that sets the latch, and what it can do under the latch. -/
theorem fatalEntryIsPreciseAndSticky : Obligations.FatalEntryIsPreciseAndSticky := by
  refine ⟨fun s t cw rest hport hf hstep hft => ?_, fun s cw rest hport hf => ?_⟩
  · obtain ⟨u, hu, heff⟩ := command_hasEffect cw { s with port := rest }
    obtain rfl : u = t := Host.Outcome.next.inj (hu.symm.trans ((step_of_port hport).symm.trans hstep))
    obtain ⟨c, hc, rfl⟩ := heff.eq_takeFatal hf hft
    exact ⟨hc, rfl⟩
  · obtain ⟨u, hu, heff⟩ := command_hasEffect cw { s with port := rest }
    rw [step_of_port hport, hu, heff.eq_answerLatched hf]
    rfl

/-- Settles O47: only a response that leaves the state alone fails, and the four operations that can fail do so by their
tests, of which the invariant ties that of WRITE to the stored flag. -/
theorem recoverableFailuresAreFourAndChangeNothing : Obligations.RecoverableFailuresAreFourAndChangeNothing := by
  intro i s t hinv hf hexec
  refine ⟨⟨?_, ?_⟩, fun ht => ?_, fun hcases => ?_⟩
  · rintro ⟨hft, r, hrsp, hok⟩
    exact eq_answered_false_of_not_ok hexec hft hrsp hok
  · rintro rfl
    exact ⟨hf, _, rfl, rfl⟩
  · cases recoverableFailure_of_exec hf (ht ▸ hexec) with
    | writeFull w hd ho hl hfull =>
      exact .inl ⟨_, _, w, _, _, _, rfl, hd, ho, hl, (hinv.full_iff hl _).2 hfull⟩
    | readEmpty hd ho hl hempty =>
      exact .inr (.inl ⟨_, _, _, _, _, rfl, hd, ho, hl, List.length_eq_zero_iff.2 hempty⟩)
    | crincAtCeiling hn => exact .inr (.inr (.inl ⟨rfl, hn⟩))
    | crdecAtZero hn => exact .inr (.inr (.inr ⟨rfl, hn⟩))
  · have hfailure : RecoverableFailure s i := by
      obtain ⟨dir, off, w, d, ls, j, rfl, hd, ho, hl, hfull⟩ | ⟨dir, off, d, ls, j, rfl, hd, ho, hl, hempty⟩ |
        ⟨rfl, hn⟩ | ⟨rfl, hn⟩ := hcases
      · exact .writeFull w hd ho hl ((hinv.full_iff hl j).1 hfull)
      · exact .readEmpty hd ho hl (List.length_eq_zero_iff.1 hempty)
      · exact .crincAtCeiling hn
      · exact .crdecAtZero hn
    exact Host.Outcome.next.inj (hexec.symm.trans (hfailure.exec_eq hf))

end Sys2Proof.Claims
end

section
/-! Reset and hazards (rules R130 to R139): the environment's contract rules out every fatal error, and a command is
answered without regard to the words that wait behind it, so a run is the fold of its commands. -/

namespace Sys2Proof

/-- The environment's contract on the operation, clause by clause (rule R136). -/
theorem Instr.obeysContract_iff (i : Instr) :
    i.obeysContract = true ↔ i.dir? ≠ some 3 ∧ (∀ off, i.off? = some off → off ∈ [0x0, 0x4, 0x8, 0xc]) ∧
      (i.isCredit = true → i.dir? = some 0) := by
  cases hoff : i.off? <;> cases hcr : i.isCredit <;> simp [Instr.obeysContract, hoff, hcr, and_assoc, or_assoc]

end Sys2Proof

namespace Sys2Proof.Machine

open Sys2Proof.Claims

variable {s t : State} {i : Instr} {c : Cause} {cw : CommandWord}

/-! ## The environment's contract (rule R136) -/

/-- Each clause of the contract excludes the condition of a cause (rules R112 to R115). -/
theorem not_fatalError_of_obeysContract (hi : i.obeysContract = true)
    (hlive : ∀ d, channelNamed i = some d → i.isInit = false → s.initialized d = true) : ¬ FatalError i s c := by
  obtain ⟨hdir3, hoffset, hcredit⟩ := i.obeysContract_iff.1 hi
  intro herr
  cases herr with
  | badDir hdir => exact hdir3 hdir
  | noCredit hdir hcr h12 =>
    obtain rfl := Option.some.inj (hdir.symm.trans (hcredit hcr))
    revert h12
    decide
  | uninit hd hinit _ hl => exact Bool.false_ne_true (hl.symm.trans (hlive _ hd hinit))
  | badOffset _ _ hoff hbad => exact hbad (hoffset _ hoff)

theorem expectedCause_none_of_obeysContract (hi : i.obeysContract = true)
    (hlive : ∀ d, channelNamed i = some d → i.isInit = false → s.initialized d = true) : expectedCause i s = none :=
  Option.eq_none_iff_forall_ne_some.2 fun _ hc =>
    not_fatalError_of_obeysContract hi hlive (fatalError_of_expectedCause hc)

/-! ## The words that wait at the port (rules R22, R139) -/

theorem State.withLanes_setPort (s : State) (d : Direction) (ls : Lanes) (p : List CommandWord) :
    State.withLanes { s with port := p } d ls = { s.withLanes d ls with port := p } := by
  rcases s with ⟨_ | _⟩ <;> cases d <;> rfl

/-- An update neither reads nor writes the port. -/
theorem State.update_setPort (s : State) (x : Update) (p : List CommandWord) :
    State.update { s with port := p } x = { s.update x with port := p } := by
  cases x with
  | keep => rfl
  | init d => cases d <;> rfl
  | lane d j L =>
    cases hl : s.lanes d with
    | uninitialised =>
      rw [State.update, State.update, State.putLane_of_uninitialised hl,
        State.putLane_of_uninitialised (s := { s with port := p }) hl]
    | live ls =>
      rw [State.update, State.update, State.putLane_of_live hl, State.putLane_of_live (s := { s with port := p }) hl,
        State.withLanes_setPort]
  | credits n => rcases s with ⟨_ | _⟩ <;> rfl

/-- With the latch set every command word has the one answer (rule R118). -/
theorem command_of_latched (cw : CommandWord) (hf : s.fatal = true) : command cw s = .next s.answerLatched := by
  obtain ⟨t, ht, heff⟩ := command_hasEffect cw s
  rw [ht, heff.eq_answerLatched hf]

/-- An operation under a clear latch neither reads nor writes the port: without a fatal error it does the same update
whatever words wait, and with one the cause is the same. -/
theorem exec_setPort (hf : s.fatal = false) (hexec : exec i s = .next t) (p : List CommandWord) :
    exec i { s with port := p } = .next { t with port := p } := by
  cases hcause : expectedCause i s with
  | none =>
    obtain ⟨x, ok, v, -, hlocal⟩ := exec_actsLocally i hcause
    obtain rfl := Host.Outcome.next.inj ((hlocal s hf rfl fun q _ => SameAt.refl q s).symm.trans hexec)
    rw [hlocal { s with port := p } hf rfl fun q _ => sameAt_of_lanes_eq (fun _ => rfl) rfl q, State.update_setPort]
    rfl
  | some c =>
    obtain rfl := Host.Outcome.next.inj ((exec_of_fatalError hf (fatalError_of_expectedCause hcause)).symm.trans hexec)
    have hcause' : expectedCause i { s with port := p } = some c := hcause
    exact exec_of_fatalError hf (fatalError_of_expectedCause hcause')

/-- The answer to a command word is the one it has whatever other words wait at the port. -/
theorem command_setPort (cw : CommandWord) (s : State) (p : List CommandWord) :
    command cw { s with port := p } = .next { afterCommand s cw with port := p } := by
  obtain ⟨t, ht, -⟩ := command_hasEffect cw s
  have hafter : afterCommand s cw = t := by rw [afterCommand, ht]
  rw [hafter]
  obtain hf | hf := Bool.eq_false_or_eq_true s.fatal
  · obtain rfl := Host.Outcome.next.inj ((command_of_latched cw hf).symm.trans ht)
    exact command_of_latched cw hf
  cases hdec : decode cw with
  | instr i =>
    rw [command_of_decode hdec] at ht ⊢
    exact exec_setPort hf ht p
  | reject r =>
    have hreserved : ∀ u : State, u.fatal = false → command cw u = .next (u.takeFatal .badOp) := fun u hu =>
      (command_of_reserved (reserved_of_decode_reject hdec) u).trans (unlessLatched_clear hu _)
    obtain rfl := Host.Outcome.next.inj ((hreserved s hf).symm.trans ht)
    exact hreserved { s with port := p } hf

/-- A step takes the first word of the port and answers it, and the others wait on (rules R22, R139). -/
theorem step_setPort_cons (cw : CommandWord) (rest : List CommandWord) (s : State) :
    step { s with port := cw :: rest } = .next { afterCommand s cw with port := rest } :=
  (step_of_port rfl).trans (command_setPort cw s rest)

/-- A step of the machine is the first step of a run (rule R139). -/
theorem run_succ_of_step (k : Nat) (h : step s = .next t) :
    Host.Core.run core (k + 1) s = Host.Core.run core k t := by
  have hstep : core.step s = .next t := h
  simp only [Host.Core.run, hstep]

end Sys2Proof.Machine

namespace Sys2Proof.Claims

open Sys2Proof.Machine

/-- Settles O45: no cause applies to an operation that keeps the contract, and then latch and cause stay. -/
theorem obeyingTheContractNeverSetsTheLatch : Obligations.ObeyingTheContractNeverSetsTheLatch :=
  fun _ _ hf hi hlive => exec_of_expectedCause_none hf (expectedCause_none_of_obeysContract hi hlive)

/-- Settles O11, by induction on the command words: each step of the run is one step of the fold. -/
theorem runIsTheFoldOfItsCommands : Obligations.RunIsTheFoldOfItsCommands := by
  intro cws rest s
  induction cws generalizing s with
  | nil => rfl
  | cons cw cws ih =>
    calc Host.Core.run core (cws.length + 1) { s with port := cw :: (cws ++ rest) }
      _ = Host.Core.run core cws.length { afterCommand s cw with port := cws ++ rest } :=
        run_succ_of_step cws.length (step_setPort_cons cw (cws ++ rest) s)
      _ = .next { cws.foldl afterCommand (afterCommand s cw) with port := rest } := ih (afterCommand s cw)

end Sys2Proof.Claims
end
